-- ==== Sys2Proof/Word.lean ====
section
/-! DEFINITION. The word types of the LCD core: `u8` and `u7` of the notation (spec/00_scope.md R6).
Every byte is unsigned and nothing is ever sign-extended (R7), so bit vectors suffice. -/

namespace Sys2Proof

/-- `u8`: a controller byte, a frame, a character code or a glyph row (R6). -/
abbrev Byte := BitVec 8

/-- `u7`: a device address on the serial bus (R6, spec/20_memory.md R25). -/
abbrev BusAddress := BitVec 7

end Sys2Proof
end

