-- ==== Sys2Proof/Machine/Flags.lean ====
section
/-! DEFINITION. The machine's constants: the frame-control masks and the fixed rows of spec/00_scope.md R4, and the
opcodes and flags of the command vocabulary (spec/30_encoding.md R50). The core has no condition codes
(spec/10_state.md R17), so no flag computation exists; these are the only flags there are. -/

namespace Sys2Proof.Machine

/-- The register-select bit of a frame (R4, R47). PRESUMED by the spec (92 D1, 93 G1), log 5, unsafe. -/
def RS_BIT : Byte := 0x01#8

/-- The read/write bit of a frame, never set by any rule (R4, R47). Log 7, safe (92 D3). -/
def RW_BIT : Byte := 0x02#8

/-- The enable bit of a frame (R4, R47). PRESUMED by the spec (92 D2, 93 G2), log 6, unsafe. -/
def EN_BIT : Byte := 0x04#8

/-- The backlight bit of a frame (R4, R47), the source's own number. -/
def BL_BIT : Byte := 0x08#8

/-- The mode `Command` as a number (R46). Log 5. -/
def MODE_COMMAND : Byte := 0x00#8

/-- The mode `Character` as a number, equal to `RS_BIT` (R4, R46). Log 5. -/
def MODE_CHARACTER : Byte := 0x01#8

/-- Usable characters of the text buffer of `print` (R4, spec/44_glyph_text.md R119). -/
def PRINT_CAP : Nat := 31

/-- Glyph slots in CGRAM (R4, spec/43_cursor_addressing.md R106). -/
def GLYPH_SLOTS : Int := 8

/-- Rows of a glyph, so the distance of two glyphs in CGRAM (R4, spec/20_memory.md R35). -/
def GLYPH_ROWS : Int := 8

/-- The four-line policy's row offset, a literal and not `COLS` (R4, spec/43_cursor_addressing.md R105). -/
def ROW_OFFSET_4L : Int := 0x14

/-- The base address of the second line (R4, spec/43_cursor_addressing.md R100). -/
def LINE2_BASE : Int := 0x40

/-! The command vocabulary (R50). All values but the two address opcodes are PRESUMED by the spec (92 D4, 93 G4):
log 8, unsafe. -/

def CMD_CLEARDISPLAY : Byte := 0x01#8
def CMD_RETURNHOME : Byte := 0x02#8
def CMD_ENTRYMODESET : Byte := 0x04#8
def FLAG_ENTRYLEFT : Byte := 0x02#8
def FLAG_ENTRYSHIFT : Byte := 0x01#8
def CMD_DISPLAYCONTROL : Byte := 0x08#8
def FLAG_DISPLAYON : Byte := 0x04#8
def FLAG_CURSORON : Byte := 0x02#8
def FLAG_BLINKON : Byte := 0x01#8
def CMD_FUNCTIONSET : Byte := 0x20#8
def FLAG_8BITMODE : Byte := 0x10#8
def FLAG_2LINE : Byte := 0x08#8
def FLAG_5x10DOTS : Byte := 0x04#8
def CMD_SETCGRAMADDR : Byte := 0x40#8
def CMD_SETDDRAMADDR : Byte := 0x80#8

/-- The literal of `init` bytes 1 to 3 (R58). -/
def LIT_RESYNC : Byte := 0x03#8

/-- The literal of `init` byte 4 (R58): a literal, not `CMD_RETURNHOME` (spec/90_conflicts.md C2). -/
def LIT_4BIT : Byte := 0x02#8

/-- A flag that is OR-ed in when its switch is on. -/
def flagIf (on : Bool) (flag : Byte) : Byte := if on then flag else 0x00#8

end Sys2Proof.Machine
end

