-- ==== Sys2Proof/Config.lean ====
section
/-! DEFINITION. The configuration record `CFG` (spec/00_scope.md R4): the OPEN parameters, resolved once at
construction (spec/10_state.md R11). The fixed rows of R4 and the command vocabulary are the constants of
Machine/Flags.lean. There is no free value: the spec leaves no result of any instruction open. -/

namespace Sys2Proof

/-- `ADDR_POLICY`: the row-to-base-address rule (R4, spec/43_cursor_addressing.md R105). -/
inductive AddrPolicy where
  | twoLine
  | fourLine
  deriving DecidableEq, Repr

/-- `UNINIT_POLICY`: what an operation other than `init` does while `IST = Uninitialized`
(R4, spec/42_init.md R95). -/
inductive UninitPolicy where
  /-- the operation has no meaning: the run is refused -/
  | refuse
  /-- the operation behaves as in `Ready`, and `IST` stays `Uninitialized` -/
  | emit
  deriving DecidableEq, Repr

/-- `CFG` (R4). `TRANSPORT_TOTAL` is not a field: it is a premise of claims (`State.Total`). -/
structure Config where
  /-- `BUS_ADDR` -/
  busAddr : BusAddress
  /-- `ADDR_POLICY` -/
  addrPolicy : AddrPolicy
  /-- `STROBE_DELAY_US`, microseconds, at least 1 (`Config.wf`) -/
  strobeDelayUs : Nat
  /-- `COLS`: stored, read by no rule (spec/10_state.md R18) -/
  cols : Nat
  /-- `ROWS`: stored, read by no rule (spec/10_state.md R18) -/
  rows : Nat
  /-- `BL_RESET`: the backlight flag at construction -/
  blReset : Bool
  /-- `UNINIT_POLICY` -/
  uninitPolicy : UninitPolicy
  deriving DecidableEq, Repr

end Sys2Proof
end

