-- ==== Sys2Proof/Syntax.lean ====
section
/-! DEFINITION. The instructions: one constructor per row of spec/opcode_table.json, with the typed operands of
spec/30_encoding.md R61 (host operations), R62 (primitives), R51 to R58 and R67 (controller bytes) and R47 (frame). -/

namespace Sys2Proof

/-- The mode of a controller byte (R46). -/
inductive Mode where
  | command
  | character
  deriving DecidableEq, Repr

/-- `ControllerByte`: an 8-bit value and its mode (R46). -/
structure ControllerByte where
  value : Byte
  mode : Mode
  deriving DecidableEq, Repr

/-- A glyph pattern: exactly eight rows, `pattern[0]` to `pattern[7]`; a shorter or longer one is not
expressible (spec/44_glyph_text.md R113). -/
structure Glyph where
  row0 : Byte
  row1 : Byte
  row2 : Byte
  row3 : Byte
  row4 : Byte
  row5 : Byte
  row6 : Byte
  row7 : Byte
  deriving DecidableEq, Repr

/-- The rows in the order they are sent, row 0 first (R113). -/
def Glyph.rows (g : Glyph) : List Byte :=
  [g.row0, g.row1, g.row2, g.row3, g.row4, g.row5, g.row6, g.row7]

/-- The rows of spec/opcode_table.json. `Int` operands are mathematical integers (spec/00_scope.md R6). -/
inductive Instr where
  /-- `init()`, spec/42_init.md R91 -/
  | init
  /-- `clear()`, spec/43_cursor_addressing.md R109 -/
  | clear
  /-- `setCursor(row, col)`, spec/43_cursor_addressing.md R101 -/
  | setCursor (row col : Int)
  /-- `writeChar(c)`, spec/44_glyph_text.md R117 -/
  | writeChar (c : Byte)
  /-- `print(text)`, the already formatted text, spec/44_glyph_text.md R119 -/
  | print (text : List Byte)
  /-- `setCursorVisibility(visible, blink)`, spec/45_backlight_visibility.md R129 -/
  | setCursorVisibility (visible blink : Bool)
  /-- `createChar(location, pattern)`, spec/44_glyph_text.md R113 -/
  | createChar (location : Int) (pattern : Glyph)
  /-- `setBacklight(on)`, spec/45_backlight_visibility.md R125 -/
  | setBacklight (on : Bool)
  /-- `ENCODE(value, mode, backlight)`, spec/40_nibble_encoder.md R70 -/
  | encode (value : Byte) (mode : Mode) (backlight : Bool)
  /-- `STROBE(frame)`, spec/41_enable_strobe.md R78 -/
  | strobe (frame : Byte)
  /-- `SENDBYTE(value, mode)`, spec/41_enable_strobe.md R82 -/
  | sendByte (value : Byte) (mode : Mode)
  /-- `DDRAM_ADDR(policy, row, col)`, spec/43_cursor_addressing.md R100 -/
  | ddramAddr (policy : AddrPolicy) (row col : Int)
  /-- `CGRAM_ADDR(location)`, spec/43_cursor_addressing.md R106 -/
  | cgramAddr (location : Int)
  /-- CLEARDISPLAY, spec/30_encoding.md R51 -/
  | clearDisplay
  /-- RETURNHOME, spec/30_encoding.md R52 -/
  | returnHome
  /-- ENTRYMODESET: `I` left-to-right entry, `S` auto-shift, spec/30_encoding.md R53 -/
  | entryModeSet (left shift : Bool)
  /-- DISPLAYCONTROL: `D` display, `C` cursor, `B` blink, spec/30_encoding.md R54 -/
  | displayControl (display cursor blink : Bool)
  /-- FUNCTIONSET: `L` 8-bit interface, `N` two lines, `F` 5x10 font, spec/30_encoding.md R55 -/
  | functionSet (eightBit twoLine tallFont : Bool)
  /-- SETCGRAMADDR with its 6-bit address, spec/30_encoding.md R56 -/
  | setCgramAddr (addr : BitVec 6)
  /-- SETDDRAMADDR with its 7-bit address, spec/30_encoding.md R57 -/
  | setDdramAddr (addr : BitVec 7)
  /-- The literal 0x03 of `init`, spec/30_encoding.md R58 -/
  | litResync
  /-- The literal 0x02 of `init`, spec/30_encoding.md R58 -/
  | lit4Bit
  /-- The literal 0x08 or 0x00 of `setBacklight`, spec/30_encoding.md R58 -/
  | litBacklight (on : Bool)
  /-- A character-mode byte, spec/30_encoding.md R67 -/
  | charData (c : Byte)
  /-- One byte on the bus in the frame format DDDDBEWM, spec/30_encoding.md R47 -/
  | frame (v : Byte)
  deriving DecidableEq, Repr

/-- The host operations: the ones a host may invoke (R61); the others are internal (R62) or formats. -/
def Instr.isHostOp : Instr → Bool
  | .init => true
  | .clear => true
  | .setCursor _ _ => true
  | .writeChar _ => true
  | .print _ => true
  | .setCursorVisibility _ _ => true
  | .createChar _ _ => true
  | .setBacklight _ => true
  | .encode _ _ _ => false
  | .strobe _ => false
  | .sendByte _ _ => false
  | .ddramAddr _ _ _ => false
  | .cgramAddr _ => false
  | .clearDisplay => false
  | .returnHome => false
  | .entryModeSet _ _ => false
  | .displayControl _ _ _ => false
  | .functionSet _ _ _ => false
  | .setCgramAddr _ => false
  | .setDdramAddr _ => false
  | .litResync => false
  | .lit4Bit => false
  | .litBacklight _ => false
  | .charData _ => false
  | .frame _ => false

end Sys2Proof
end

