-- ==== Sys2Proof/Machine/Operands.lean ====
section
/-! DEFINITION. Operand forms: the pure functions by which operands reach the wire (spec/30_encoding.md R59, R66).
The nibble encoder ENCODE, the address calculators DDRAM_ADDR and CGRAM_ADDR, and the command bytes. -/

namespace Sys2Proof.Machine

/-- `low8(x)`: `x mod 256`, also for negative `x` (spec/00_scope.md R7). Log 9. -/
def low8 (x : Int) : Byte := BitVec.ofInt 8 x

/-- The mode as it is OR-ed into a frame (spec/30_encoding.md R46). -/
def modeBits : Mode → Byte
  | .command => MODE_COMMAND
  | .character => MODE_CHARACTER

/-- The high nibble's frame, `mode | (value & 0xF0) | backlightBit` (spec/40_nibble_encoder.md R70). -/
def highFrame (value : Byte) (mode : Mode) (backlight : Bool) : Byte :=
  modeBits mode ||| (value &&& 0xF0#8) ||| flagIf backlight BL_BIT

/-- The low nibble's frame, `mode | ((value << 4) & 0xF0) | backlightBit` (R70). -/
def lowFrame (value : Byte) (mode : Mode) (backlight : Bool) : Byte :=
  modeBits mode ||| ((value <<< 4) &&& 0xF0#8) ||| flagIf backlight BL_BIT

/-- DDRAM_ADDR (spec/43_cursor_addressing.md R100): an exact sum, or `none` for reject. The two-line policy
validates nothing (R104, log 18); neither policy validates the column (R103). -/
def ddramAddress (policy : AddrPolicy) (row col : Int) : Option Int :=
  match policy with
  | .twoLine => some ((if row = 0 then 0 else LINE2_BASE) + col)
  | .fourLine =>
    if row = 0 then some (0 + col)
    else if row = 1 then some (LINE2_BASE + col)
    else if row = 2 then some (0 + ROW_OFFSET_4L + col)
    else if row = 3 then some (LINE2_BASE + ROW_OFFSET_4L + col)
    else none

/-- CGRAM_ADDR (R106): `location * 8`, or `none` for reject. -/
def cgramAddress (location : Int) : Option Int :=
  if location < 0 ∨ location ≥ GLYPH_SLOTS then none else some (location * GLYPH_ROWS)

/-- `low8(CMD_SETDDRAMADDR | a)` for an unbounded `a` (R101): OR-ing after the cut gives the same byte
(spec/30_encoding.md R66). -/
def cursorCommand (a : Int) : Byte := CMD_SETDDRAMADDR ||| low8 a

/-- `CMD_SETCGRAMADDR | a` (spec/44_glyph_text.md R113). -/
def glyphCommand (a : Int) : Byte := CMD_SETCGRAMADDR ||| low8 a

/-- ENTRYMODESET's byte (spec/30_encoding.md R53). -/
def entryModeByte (left shift : Bool) : Byte :=
  CMD_ENTRYMODESET ||| flagIf left FLAG_ENTRYLEFT ||| flagIf shift FLAG_ENTRYSHIFT

/-- DISPLAYCONTROL's byte (spec/30_encoding.md R54). -/
def displayControlByte (display cursor blink : Bool) : Byte :=
  CMD_DISPLAYCONTROL ||| flagIf display FLAG_DISPLAYON ||| flagIf cursor FLAG_CURSORON
    ||| flagIf blink FLAG_BLINKON

/-- FUNCTIONSET's byte, unused bits 1..0 sent as 0 (spec/30_encoding.md R55). -/
def functionSetByte (eightBit twoLine tallFont : Bool) : Byte :=
  CMD_FUNCTIONSET ||| flagIf eightBit FLAG_8BITMODE ||| flagIf twoLine FLAG_2LINE
    ||| flagIf tallFont FLAG_5x10DOTS

/-- SETCGRAMADDR's byte (spec/30_encoding.md R56). -/
def setCgramByte (addr : BitVec 6) : Byte := CMD_SETCGRAMADDR ||| addr.setWidth 8

/-- SETDDRAMADDR's byte (spec/30_encoding.md R57). -/
def setDdramByte (addr : BitVec 7) : Byte := CMD_SETDDRAMADDR ||| addr.setWidth 8

/-- The payload of `setBacklight`: the backlight flag alone, or zero (spec/45_backlight_visibility.md R125). -/
def backlightByte (on : Bool) : Byte := flagIf on BL_BIT

/-- The characters `print` sends: up to the first 0x00 (spec/44_glyph_text.md R121, log 15), at most `PRINT_CAP`
(R119, R120). -/
def printable (text : List Byte) : List Byte :=
  (text.takeWhile (fun c => c != 0x00#8)).take PRINT_CAP

end Sys2Proof.Machine
end

