-- ==== Sys2Proof/WellFormed.lean ====
section
/-! DEFINITION. What a well-formed configuration and a well-formed instruction are. The operand types carry every
other bound (a glyph has eight rows, addresses have six and seven bits, bytes eight), and every value the spec calls
rejected, truncated or permissive is well formed: the instruction itself deals with it (spec/30_encoding.md R65). -/

namespace Sys2Proof

/-- `STROBE_DELAY_US` is at least 1 (spec/00_scope.md R4, spec/41_enable_strobe.md R79). -/
def Config.wf (c : Config) : Bool := decide (1 ≤ c.strobeDelayUs)

/-- The one reserved bit an operand can hold: bit 1 (`W`) of a FRAME is always 0 (spec/30_encoding.md R47, R65).
STROBE is defined on every byte (spec/41_enable_strobe.md R87), so nothing is asked of its operand. -/
def Instr.wellFormed : Instr → Bool
  | .init => true
  | .clear => true
  | .setCursor _ _ => true
  | .writeChar _ => true
  | .print _ => true
  | .setCursorVisibility _ _ => true
  | .createChar _ _ => true
  | .setBacklight _ => true
  | .encode _ _ _ => true
  | .strobe _ => true
  | .sendByte _ _ => true
  | .ddramAddr _ _ _ => true
  | .cgramAddr _ => true
  | .clearDisplay => true
  | .returnHome => true
  | .entryModeSet _ _ => true
  | .displayControl _ _ _ => true
  | .functionSet _ _ _ => true
  | .setCgramAddr _ => true
  | .setDdramAddr _ => true
  | .litResync => true
  | .lit4Bit => true
  | .litBacklight _ => true
  | .charData _ => true
  | .frame v => v &&& Machine.RW_BIT == 0x00#8

end Sys2Proof
end

