-- ==== Sys2Proof/Decode.lean ====
section
/-! DEFINITION. Reading the encodings of spec/opcode_table.json, and after it the encoder.
The core itself "never decodes anything" (spec/30_encoding.md, opening) and a host operation has "no binary encoding"
(R61): a row's encoding says which bytes the row stands for on the way to the bus. Rows of different levels share
words (`clear` and CLEARDISPLAY are both 00000001), so a word is read in two ways: `Row.read`, the row known, gives
every row of the table; `decode`, nothing known but the word, takes a single byte for a command byte and classifies
it by its highest set bit (R68, whose own labels are `classifyCommand`). Log 25. -/

namespace Sys2Proof

/-- The rows of spec/opcode_table.json. -/
inductive Row where
  | init
  | clear
  | setCursor
  | writeChar
  | print
  | setCursorVisibility
  | createChar
  | setBacklight
  | encode
  | strobe
  | sendByte
  | ddramAddr
  | cgramAddr
  | clearDisplay
  | returnHome
  | entryModeSet
  | displayControl
  | functionSet
  | setCgramAddr
  | setDdramAddr
  | litResync
  | lit4Bit
  | litBacklight
  | charData
  | frame
  deriving DecidableEq, Repr

/-- The row an instruction belongs to. -/
def Instr.row : Instr → Row
  | .init => .init
  | .clear => .clear
  | .setCursor _ _ => .setCursor
  | .writeChar _ => .writeChar
  | .print _ => .print
  | .setCursorVisibility _ _ => .setCursorVisibility
  | .createChar _ _ => .createChar
  | .setBacklight _ => .setBacklight
  | .encode _ _ _ => .encode
  | .strobe _ => .strobe
  | .sendByte _ _ => .sendByte
  | .ddramAddr _ _ _ => .ddramAddr
  | .cgramAddr _ => .cgramAddr
  | .clearDisplay => .clearDisplay
  | .returnHome => .returnHome
  | .entryModeSet _ _ => .entryModeSet
  | .displayControl _ _ _ => .displayControl
  | .functionSet _ _ _ => .functionSet
  | .setCgramAddr _ => .setCgramAddr
  | .setDdramAddr _ => .setDdramAddr
  | .litResync => .litResync
  | .lit4Bit => .lit4Bit
  | .litBacklight _ => .litBacklight
  | .charData _ => .charData
  | .frame _ => .frame

/-- The bytes of `init` as the table writes them out. -/
def initWords : List Byte := [0x03#8, 0x03#8, 0x03#8, 0x02#8, 0x2C#8, 0x0C#8, 0x06#8, 0x01#8]

/-- The fixed bits of one byte of an encoding: a mask and what the masked byte must be. -/
structure BytePattern where
  mask : Byte
  value : Byte
  deriving DecidableEq, Repr

/-- Whether a byte has a pattern's fixed bits. -/
def BytePattern.fits (p : BytePattern) (v : Byte) : Bool := v &&& p.mask == p.value

/-- The table's `encoding` column, byte by byte, for the rows of one fixed length; `print` repeats CCCCCCCC. -/
def Row.patterns : Row → List BytePattern
  | .init => initWords.map (BytePattern.mk 0xFF#8)
  | .clear => [⟨0xFF#8, 0x01#8⟩]
  | .setCursor => [⟨0x80#8, 0x80#8⟩]
  | .writeChar => [⟨0x00#8, 0x00#8⟩]
  | .print => []
  | .setCursorVisibility => [⟨0xFC#8, 0x0C#8⟩]
  | .createChar => ⟨0xC7#8, 0x40#8⟩ :: List.replicate 8 ⟨0x00#8, 0x00#8⟩
  | .setBacklight => [⟨0xF7#8, 0x00#8⟩]
  | .encode => [⟨0x06#8, 0x00#8⟩, ⟨0x06#8, 0x00#8⟩]
  | .strobe => [⟨0x04#8, 0x00#8⟩, ⟨0x04#8, 0x04#8⟩, ⟨0x04#8, 0x00#8⟩]
  | .sendByte =>
    [⟨0x06#8, 0x00#8⟩, ⟨0x06#8, 0x04#8⟩, ⟨0x06#8, 0x00#8⟩, ⟨0x06#8, 0x00#8⟩, ⟨0x06#8, 0x04#8⟩, ⟨0x06#8, 0x00#8⟩]
  | .ddramAddr => [⟨0x80#8, 0x00#8⟩]
  | .cgramAddr => [⟨0xC7#8, 0x00#8⟩]
  | .clearDisplay => [⟨0xFF#8, 0x01#8⟩]
  | .returnHome => [⟨0xFF#8, 0x02#8⟩]
  | .entryModeSet => [⟨0xFC#8, 0x04#8⟩]
  | .displayControl => [⟨0xF8#8, 0x08#8⟩]
  | .functionSet => [⟨0xE0#8, 0x20#8⟩]
  | .setCgramAddr => [⟨0xC0#8, 0x40#8⟩]
  | .setDdramAddr => [⟨0x80#8, 0x80#8⟩]
  | .litResync => [⟨0xFF#8, 0x03#8⟩]
  | .lit4Bit => [⟨0xFF#8, 0x02#8⟩]
  | .litBacklight => [⟨0xF7#8, 0x00#8⟩]
  | .charData => [⟨0x00#8, 0x00#8⟩]
  | .frame => [⟨0x02#8, 0x00#8⟩]

/-- Whether each byte has its pattern's fixed bits, and there is one byte for each pattern. -/
def fitAll : List BytePattern → List Byte → Bool
  | [], [] => true
  | p :: ps, v :: vs => p.fits v && fitAll ps vs
  | [], _ :: _ => false
  | _ :: _, [] => false

/-- Whether a word has a row's fixed bits. A text `print` sends has at most 31 characters and no terminator
(spec/44_glyph_text.md R119, R121). -/
def Row.matches (r : Row) (bs : List Byte) : Bool :=
  match r with
  | .print => decide (bs.length ≤ Machine.PRINT_CAP) && bs.all (fun c => c != 0x00#8)
  | _ => fitAll r.patterns bs

/-- The mode a frame's bit 0 carries (spec/40_nibble_encoder.md R75). -/
def modeOfFrame (f : Byte) : Mode := if f.getLsbD 0 then .character else .command

/-- The value two frames carry (R75). -/
def valueOfFrames (high low : Byte) : Byte := (high &&& 0xF0#8) ||| ((low &&& 0xF0#8) >>> 4)

/-- Bits 5..3 of a byte: `LLL` of the glyph rows. -/
def glyphField (v : Byte) : Int := ((v >>> 3) &&& 0x07#8).toNat

/-- Bits 6..0 of a byte: `AAAAAAA` of the DDRAM rows. -/
def addressField (v : Byte) : Int := (v &&& 0x7F#8).toNat

/-- The operands a row's fields give, the row's fixed bits being right. `setCursor` and DDRAM_ADDR carry only the
sum of base and column: they are read as row 0 and that column, which have the same sum under either policy
(log 26). SENDBYTE's `B` is the flag `BL` had, no operand. -/
def Row.operands (r : Row) (bs : List Byte) : Option Instr :=
  match r, bs with
  | .init, _ => some .init
  | .clear, _ => some .clear
  | .setCursor, [v] => some (.setCursor 0 (addressField v))
  | .writeChar, [v] => some (.writeChar v)
  | .print, text => some (.print text)
  | .setCursorVisibility, [v] => some (.setCursorVisibility (v.getLsbD 1) (v.getLsbD 0))
  | .createChar, [a, r0, r1, r2, r3, r4, r5, r6, r7] =>
    some (.createChar (glyphField a) ⟨r0, r1, r2, r3, r4, r5, r6, r7⟩)
  | .setBacklight, [v] => some (.setBacklight (v.getLsbD 3))
  | .encode, [h, l] =>
    if h &&& 0x0F#8 = l &&& 0x0F#8 then
      some (.encode (valueOfFrames h l) (modeOfFrame h) (h.getLsbD 3))
    else none
  | .strobe, [a, b, c] => if b = a ||| 0x04#8 ∧ c = a then some (.strobe a) else none
  | .sendByte, [h, h', h'', l, l', l''] =>
    if h &&& 0x0F#8 = l &&& 0x0F#8 ∧ h' = h ||| 0x04#8 ∧ h'' = h ∧ l' = l ||| 0x04#8 ∧ l'' = l then
      some (.sendByte (valueOfFrames h l) (modeOfFrame h))
    else none
  | .ddramAddr, [v] => some (.ddramAddr .twoLine 0 (addressField v))
  | .cgramAddr, [v] => some (.cgramAddr (glyphField v))
  | .clearDisplay, _ => some .clearDisplay
  | .returnHome, _ => some .returnHome
  | .entryModeSet, [v] => some (.entryModeSet (v.getLsbD 1) (v.getLsbD 0))
  | .displayControl, [v] => some (.displayControl (v.getLsbD 2) (v.getLsbD 1) (v.getLsbD 0))
  | .functionSet, [v] => some (.functionSet (v.getLsbD 4) (v.getLsbD 3) (v.getLsbD 2))
  | .setCgramAddr, [v] => some (.setCgramAddr (v.setWidth 6))
  | .setDdramAddr, [v] => some (.setDdramAddr (v.setWidth 7))
  | .litResync, _ => some .litResync
  | .lit4Bit, _ => some .lit4Bit
  | .litBacklight, [v] => some (.litBacklight (v.getLsbD 3))
  | .charData, [v] => some (.charData v)
  | .frame, [v] => some (.frame v)
  | _, _ => none

/-- Read a word as a given row of the table. -/
def Row.read (r : Row) (bs : List Byte) : Option Instr := if r.matches bs then r.operands bs else none

/-- Why a word is no instruction. -/
inductive DecodeError where
  /-- no byte at all -/
  | empty
  /-- a command byte 0x10 to 0x1F: the cursor or display shift the core never emits (spec/30_encoding.md R52, R68) -/
  | shiftCommand
  /-- two bytes that are not the two frames of one controller byte (spec/40_nibble_encoder.md R75) -/
  | notAFramePair
  /-- three bytes that are not one strobe (spec/41_enable_strobe.md R81) -/
  | notAStrobe
  /-- six bytes that are not one byte transfer (spec/41_enable_strobe.md R82) -/
  | notATransfer
  /-- eight bytes that are not the sequence of `init` (spec/42_init.md R92) -/
  | notTheInitSequence
  /-- nine bytes that do not begin with a glyph address (spec/44_glyph_text.md R113) -/
  | notAGlyph
  /-- a number of bytes no row of one fixed length has -/
  | noSuchLength
  deriving DecidableEq, Repr

/-- The labels of command bytes (spec/30_encoding.md R68). -/
inductive CommandLabel where
  | setDdramAddr (addr : BitVec 7)
  | setCgramAddr (addr : BitVec 6)
  | functionSet
  /-- a cursor or display shift, "which the LCD core never emits" -/
  | shift
  | displayControl
  | entryModeSet
  | returnHome
  | clearDisplay
  /-- 0x00, "no command" -/
  | noCommand
  deriving DecidableEq, Repr

/-- R68's label of a command byte, by its highest set bit: for a harness that labels the bytes of a trace. 0x03 is
labelled RETURNHOME and 0x00 no command, whatever literal of R58 they were sent as. -/
def classifyCommand (v : Byte) : CommandLabel :=
  if v.getLsbD 7 then .setDdramAddr (v.setWidth 7)
  else if v.getLsbD 6 then .setCgramAddr (v.setWidth 6)
  else if v.getLsbD 5 then .functionSet
  else if v.getLsbD 4 then .shift
  else if v.getLsbD 3 then .displayControl
  else if v.getLsbD 2 then .entryModeSet
  else if v.getLsbD 1 then .returnHome
  else if v.getLsbD 0 then .clearDisplay
  else .noCommand

/-- The row of the table a label names; a shift and no command have none. -/
def CommandLabel.row : CommandLabel → Option Row
  | .setDdramAddr _ => some .setDdramAddr
  | .setCgramAddr _ => some .setCgramAddr
  | .functionSet => some .functionSet
  | .shift => none
  | .displayControl => some .displayControl
  | .entryModeSet => some .entryModeSet
  | .returnHome => some .returnHome
  | .clearDisplay => some .clearDisplay
  | .noCommand => none

/-- A command byte as the row of the table that sends exactly it. It is the row of R68's label (`classifyCommand`)
but for two bytes no vocabulary row sends: 0x03 is the resynchronising literal, since RETURNHOME's pattern is 00000010
alone (spec/30_encoding.md R52, R58), and 0x00 is the backlight-off payload (R58). DESIGN CHOICE, log 25. -/
def decodeCommand (v : Byte) : Except DecodeError Instr :=
  if v.getLsbD 7 then .ok (.setDdramAddr (v.setWidth 7))
  else if v.getLsbD 6 then .ok (.setCgramAddr (v.setWidth 6))
  else if v.getLsbD 5 then .ok (.functionSet (v.getLsbD 4) (v.getLsbD 3) (v.getLsbD 2))
  else if v.getLsbD 4 then .error .shiftCommand
  else if v.getLsbD 3 then .ok (.displayControl (v.getLsbD 2) (v.getLsbD 1) (v.getLsbD 0))
  else if v.getLsbD 2 then .ok (.entryModeSet (v.getLsbD 1) (v.getLsbD 0))
  else if v.getLsbD 1 then .ok (if v.getLsbD 0 then .litResync else .returnHome)
  else if v.getLsbD 0 then .ok .clearDisplay
  else .ok (.litBacklight false)

/-- Read a controller byte whose mode is known as a row of the table (spec/20_memory.md R43, spec/30_encoding.md R67;
log 25). -/
def decodeControllerByte (b : ControllerByte) : Except DecodeError Instr :=
  match b.mode with
  | .command => decodeCommand b.value
  | .character => .ok (.charData b.value)

/-- A reading, or the named reason it fails. -/
def orError (e : DecodeError) : Option Instr → Except DecodeError Instr
  | some i => .ok i
  | none => .error e

/-- Read a word of which nothing is known but its bytes, by its length. -/
def decode (bs : List Byte) : Except DecodeError Instr :=
  match bs with
  | [] => .error .empty
  | [v] => decodeCommand v
  | [_, _] => orError .notAFramePair (Row.encode.read bs)
  | [_, _, _] => orError .notAStrobe (Row.strobe.read bs)
  | [_, _, _, _, _, _] => orError .notATransfer (Row.sendByte.read bs)
  | [_, _, _, _, _, _, _, _] => orError .notTheInitSequence (Row.init.read bs)
  | [_, _, _, _, _, _, _, _, _] => orError .notAGlyph (Row.createChar.read bs)
  | _ => .error .noSuchLength

/-- The `n` bytes of a table word, bits 7..0 first. -/
def wordBytes : Nat → Nat → List Byte
  | 0, _ => []
  | n + 1, w => BitVec.ofNat 8 w :: wordBytes n (w / 256)

/-- The instruction `decode` reads from a word whose bits the table numbers: the first byte is bits 7..0. -/
def decodeTableWord (nbits w : Nat) : Option Instr :=
  match decode (wordBytes ((nbits + 7) / 8) w) with
  | .ok i => some i
  | .error _ => none

/-- The bytes a row stands for, from the table's `encoding` column: `policy` is `CFG.ADDR_POLICY` and `backlight` is
`BL`, which `setCursor` and SENDBYTE read. A rejected operation stands for no byte. -/
def encode (policy : AddrPolicy) (backlight : Bool) : Instr → List Byte
  | .init => initWords
  | .clear => [0x01#8]
  | .setCursor row col =>
    match Machine.ddramAddress policy row col with
    | some a => [Machine.cursorCommand a]
    | none => []
  | .writeChar c => [c]
  | .print text => Machine.printable text
  | .setCursorVisibility visible blink => [Machine.displayControlByte true visible blink]
  | .createChar location pattern =>
    match Machine.cgramAddress location with
    | some a => Machine.glyphCommand a :: pattern.rows
    | none => []
  | .setBacklight on => [Machine.backlightByte on]
  | .encode value mode b => [Machine.highFrame value mode b, Machine.lowFrame value mode b]
  | .strobe f => [f, f ||| Machine.EN_BIT, f &&& ~~~Machine.EN_BIT]
  | .sendByte value mode =>
    let h := Machine.highFrame value mode backlight
    let l := Machine.lowFrame value mode backlight
    [h, h ||| Machine.EN_BIT, h, l, l ||| Machine.EN_BIT, l]
  | .ddramAddr p row col =>
    match Machine.ddramAddress p row col with
    | some a => [Machine.low8 a]
    | none => []
  | .cgramAddr location =>
    match Machine.cgramAddress location with
    | some a => [Machine.low8 a]
    | none => []
  | .clearDisplay => [0x01#8]
  | .returnHome => [0x02#8]
  | .entryModeSet left shift => [Machine.entryModeByte left shift]
  | .displayControl display cursor blink => [Machine.displayControlByte display cursor blink]
  | .functionSet eightBit twoLine tallFont => [Machine.functionSetByte eightBit twoLine tallFont]
  | .setCgramAddr addr => [Machine.setCgramByte addr]
  | .setDdramAddr addr => [Machine.setDdramByte addr]
  | .litResync => [0x03#8]
  | .lit4Bit => [0x02#8]
  | .litBacklight on => [Machine.backlightByte on]
  | .charData c => [c]
  | .frame v => [v]

/-- The instructions whose operands their row's word carries whole (log 26). -/
def Instr.carried : Instr → Bool
  | .init => true
  | .clear => true
  | .setCursor row col => decide (row = 0 ∧ 0 ≤ col ∧ col < 128)
  | .writeChar _ => true
  | .print text => decide (text.length ≤ Machine.PRINT_CAP) && text.all (fun c => c != 0x00#8)
  | .setCursorVisibility _ _ => true
  | .createChar location _ => decide (0 ≤ location ∧ location < 8)
  | .setBacklight _ => true
  | .encode _ _ _ => true
  | .strobe f => f &&& 0x04#8 == 0x00#8
  | .sendByte _ _ => true
  | .ddramAddr policy row col => policy == .twoLine && decide (row = 0 ∧ 0 ≤ col ∧ col < 128)
  | .cgramAddr location => decide (0 ≤ location ∧ location < 8)
  | .clearDisplay => true
  | .returnHome => true
  | .entryModeSet _ _ => true
  | .displayControl _ _ _ => true
  | .functionSet _ _ _ => true
  | .setCgramAddr _ => true
  | .setDdramAddr _ => true
  | .litResync => true
  | .lit4Bit => true
  | .litBacklight _ => true
  | .charData _ => true
  | .frame v => v &&& 0x02#8 == 0x00#8

end Sys2Proof
end

