-- ==== Sys2Proof/Machine/Construct.lean ====
section
/-! DEFINITION. The constructor's arguments that `State.reset` is built from. The spec makes each an OPEN parameter
(spec/00_scope.md R4); claims quantify over all of them (`State.construct cfg`), and this record only names one. -/

namespace Sys2Proof.Machine

/-- One choice of the OPEN parameters. `busAddr` PRESUMED 0x27, the family's usual backpack address
(spec/20_memory.md R33; log 2, unsafe); `addrPolicy`, `cols`, `rows` DESIGN CHOICE (log 3, unsafe);
`strobeDelayUs` 600, the spec's default (spec/10_state.md R20); `blReset` DESIGN CHOICE 1, the spec's suggestion
(R4, 92 D7; log 4, unsafe); `uninitPolicy` the spec's value (R4; log 10). -/
def constructorArguments : Config where
  busAddr := 0x27#7
  addrPolicy := .twoLine
  strobeDelayUs := 600
  cols := 16
  rows := 2
  blReset := true
  uninitPolicy := .refuse

end Sys2Proof.Machine
end

