-- ==== Sys2Proof/Machine/State.lean ====
section
/-! DEFINITION. The state of one LCD core instance as plain data (spec/10_state.md R10, R14, R20), with the event
trace (spec/00_scope.md R5), the inputs of its environment and the results of presented primitives. -/

namespace Sys2Proof.Machine

/-- An event of the trace (spec/00_scope.md R5). -/
inductive Event where
  /-- `W(a, v)`: one call `writeByte(a, v)` of the transport (spec/20_memory.md R26) -/
  | W (a : BusAddress) (v : Byte)
  /-- `D(t)`: one call `sleepMicroseconds(t)` of the delay primitive (spec/20_memory.md R36) -/
  | D (t : Nat)
  deriving DecidableEq, Repr

/-- `IST`: the initialisation state machine (spec/10_state.md R13). -/
inductive InitState where
  | uninitialized
  | initializing
  | ready
  deriving DecidableEq, Repr

/-- What the transport does with one `writeByte` call: `ok|error` (spec/20_memory.md R26), or it never returns
(R37). -/
inductive WriteReply where
  | ok
  | error
  | never
  deriving DecidableEq, Repr

/-- What the delay primitive does with one call: it returns (spec/20_memory.md R36), or never does
(spec/70_reset_and_hazards.md R159). -/
inductive DelayReply where
  | returned
  | never
  deriving DecidableEq, Repr

/-- What a pure primitive returns to its caller (spec/30_encoding.md R62). Log 23. -/
inductive PrimResult where
  /-- no primitive has been presented yet -/
  | nothing
  /-- ENCODE's pair -/
  | frames (high low : Byte)
  /-- the `Int` of DDRAM_ADDR or CGRAM_ADDR -/
  | address (a : Int)
  /-- the reject of DDRAM_ADDR or CGRAM_ADDR -/
  | reject
  deriving DecidableEq, Repr

/-- Nothing raises a fault: the core "raises no exception, takes no trap and returns no error code"
(spec/60_exceptions.md R133), an access to a missing address does not exist, and a transport that never answers is
a hang and not a fault (spec/20_memory.md R37). Having no constructor is exact. Log 33, safe. -/
inductive Fault where
  deriving DecidableEq, Repr

/-- The reasons a step is refused. -/
inductive Refusal where
  /-- raised by an arm of `exec` for an instruction without a meaning; safe (the run stops) -/
  | notModelled (mnemonic : String)
  /-- raised by every host operation but `init` while `IST = Uninitialized` and `UNINIT_POLICY = refuse`: the spec
  gives the case no meaning (spec/42_init.md R95); safe (the run stops) -/
  | beforeInit
  /-- raised by `step` for a request that is not well formed, a FRAME whose reserved bit is set
  (spec/30_encoding.md R47); safe (the run stops) -/
  | illFormed
  deriving DecidableEq, Repr

/-- The state. -/
structure State where
  /-- `CFG`, written at construction only (spec/10_state.md R11). Log 1. -/
  cfg : Config
  /-- `BL`, the current backlight flag (R12) -/
  bl : Bool
  /-- `IST` (R13) -/
  ist : InitState
  /-- `SEQ`, the events of the operation in progress that have not been performed (R14) -/
  seq : List Event
  /-- the event trace so far, oldest first (spec/00_scope.md R5). Log 12. -/
  trace : List Event
  /-- input: the instructions presented and not yet accepted, next first (spec/70_reset_and_hazards.md R167).
  Log 20. -/
  requests : List Instr
  /-- input: the transport's answers to come (spec/20_memory.md R27, R37); after the last one it answers `ok`.
  Log 13. -/
  writeReplies : List WriteReply
  /-- input: the delay primitive's answers to come; after the last one it returns. Log 14. -/
  delayReplies : List DelayReply
  /-- the model's own: what the last pure primitive presented returned. Log 23. -/
  result : PrimResult
  deriving DecidableEq, Repr

/-- Construction of a handle, which is reset (spec/70_reset_and_hazards.md R150, spec/10_state.md R20): no event is
emitted, nothing is in progress, and no input has arrived. -/
def State.construct (cfg : Config) : State where
  cfg := cfg
  bl := cfg.blReset
  ist := .uninitialized
  seq := []
  trace := []
  requests := []
  writeReplies := []
  delayReplies := []
  result := .nothing

/-- The machine right after reset, for one choice of the constructor's arguments. -/
def State.reset : State := State.construct constructorArguments

end Sys2Proof.Machine
end

