-- ==== Sys2Proof/Machine/Ops.lean ====
section
/-! DEFINITION. The named operations over the state: emitting events, STROBE and SENDBYTE, the admission of a host
operation, the silent reject, and performing one event. There is no exception to take and none to return from
(spec/60_exceptions.md R133, R141, R143): the reject is all that stands in their place. -/

namespace Sys2Proof.Machine

/-- `emit(xs)`: append events to those of the operation in progress (spec/00_scope.md R8). -/
def State.emit (s : State) (xs : List Event) : State := { s with seq := s.seq ++ xs }

/-- `BusWrite(v)`: the event `W(CFG.BUS_ADDR, v)` (spec/00_scope.md R8, spec/20_memory.md R26). -/
def busWrite (c : Config) (v : Byte) : Event := .W c.busAddr v

/-- `Delay()`: the event `D(CFG.STROBE_DELAY_US)` (spec/00_scope.md R8, spec/41_enable_strobe.md R79). -/
def delay (c : Config) : Event := .D c.strobeDelayUs

/-- STROBE's six events (spec/41_enable_strobe.md R78): the frame, the frame with enable raised, the frame with
enable dropped, a delay after each. -/
def strobeEvents (c : Config) (frame : Byte) : List Event :=
  [busWrite c frame, delay c, busWrite c (frame ||| EN_BIT), delay c, busWrite c (frame &&& ~~~EN_BIT), delay c]

/-- STROBE as a state operation (R78): it writes nothing but the events. -/
def State.strobe (s : State) (frame : Byte) : State := s.emit (strobeEvents s.cfg frame)

/-- SENDBYTE (spec/41_enable_strobe.md R82): `BL` is read once (R84), the high frame is strobed first (R72). -/
def State.sendByte (s : State) (value : Byte) (mode : Mode) : State :=
  let backlight := s.bl
  (s.strobe (highFrame value mode backlight)).strobe (lowFrame value mode backlight)

/-- SENDBYTE of each value in turn, in one mode: the loops of `print`, `createChar` and `init`. -/
def State.sendBytes (s : State) (values : List Byte) (mode : Mode) : State :=
  values.foldl (fun s v => s.sendByte v mode) s

/-- `reject` (spec/00_scope.md R8, spec/60_exceptions.md R141): the operation ends at once, emits no event and
writes no state. -/
def State.reject (s : State) : State := s

/-- A host operation presented while an earlier one is in progress is not accepted: its caller is blocked
(spec/10_state.md R14, spec/70_reset_and_hazards.md R167), so it stays the next request. Log 21. -/
def State.holdBack (s : State) (i : Instr) : State := { s with requests := i :: s.requests }

/-- Whether an operation can be accepted: nothing is in progress (spec/10_state.md R14) and no `init` is
(spec/42_init.md R96). -/
def State.idle (s : State) : Bool := s.seq.isEmpty && s.ist != .initializing

/-- The admission check against `IST` of the operations other than `init` (spec/42_init.md R95). Log 10. -/
def State.admits (s : State) : Bool := s.ist != .uninitialized || s.cfg.uninitPolicy == .emit

/-- Present a gated host operation: it waits while the core is busy, is refused before `init`
(spec/42_init.md R95; made once, before any argument check, spec/60_exceptions.md R140), and otherwise has its
effect. -/
def State.present (s : State) (i : Instr) (effect : State → State) : Host.Outcome State Fault Refusal :=
  if s.idle then
    if s.admits then .next (effect s) else .refused .beforeInit
  else .next (s.holdBack i)

/-- Present `init`, which is accepted in `Uninitialized` and in `Ready` (spec/42_init.md R91, R94; log 11). -/
def State.presentInit (s : State) (effect : State → State) : Host.Outcome State Fault Refusal :=
  if s.idle then .next (effect s) else .next (s.holdBack .init)

/-- Leave what a pure primitive returns to its caller. Log 23. -/
def State.answer (s : State) (r : PrimResult) : State := { s with result := r }

/-- What an address calculator's `Int or reject` is as a result (spec/30_encoding.md R62). -/
def addressResult : Option Int → PrimResult
  | some a => .address a
  | none => .reject

/-- The head event has been performed: it leaves `SEQ` and joins the trace, and the last event of an `init` makes
the core `Ready` (spec/10_state.md R14, spec/42_init.md R90). Log 28. -/
def State.complete (s : State) (e : Event) (rest : List Event) : State :=
  { s with
    seq := rest
    trace := s.trace ++ [e]
    ist := if rest.isEmpty && s.ist == .initializing then .ready else s.ist }

/-- Perform the head event `e` of `SEQ`: call the transport or the delay primitive and wait for it to return. The
transport's `ok` or `error` is discarded (spec/20_memory.md R27); a call that never returns leaves the core with the
event at the head of `SEQ` for ever (R37, spec/70_reset_and_hazards.md R159). Logs 13 and 14. -/
def State.perform (s : State) (e : Event) (rest : List Event) : State :=
  match e with
  | .W _ _ =>
    match s.writeReplies with
    | .never :: _ => s
    | replies => { s.complete e rest with writeReplies := replies.tail }
  | .D _ =>
    match s.delayReplies with
    | .never :: _ => s
    | replies => { s.complete e rest with delayReplies := replies.tail }

/-- Take the next request, if the host has presented one (spec/10_state.md R16, spec/70_reset_and_hazards.md R167). -/
def State.takeRequest (s : State) : Option (Instr × State) :=
  match s.requests with
  | [] => none
  | i :: rest => some (i, { s with requests := rest })

/-- `IST` as the boot order leaves it when a host operation is to run next: a gated operation needs an `init` to have
completed (spec/70_reset_and_hazards.md R152), and no operation runs during one (spec/42_init.md R96). Log 27. -/
def State.bootedFor (s : State) (i : Instr) : InitState :=
  if !i.isHostOp then s.ist
  else if s.ist == .initializing then .ready
  else if i == .init || s.admits then s.ist
  else .ready

/-- Make `i` the very next thing the core does: it is presented first, nothing is in progress, and the boot it needs
is done. Log 27. -/
def State.place (s : State) (i : Instr) : State :=
  { s with seq := [], ist := s.bootedFor i, requests := i :: s.requests }

end Sys2Proof.Machine
end

