-- ==== Sys2Proof/Machine/Addressing.lean ====
section
/-! DEFINITION. The host operations `clear` and `setCursor` and the primitives DDRAM_ADDR and CGRAM_ADDR
(spec/43_cursor_addressing.md). -/

namespace Sys2Proof.Machine

/-- `clear()` (R109): one command byte; the homing is the controller's. -/
def execClear (s : State) : Host.Outcome State Fault Refusal :=
  s.present .clear fun s => s.sendByte CMD_CLEARDISPLAY .command

/-- `setCursor(row, col)` (R101): a silent reject (R102), or the set-DDRAM-address command of the low eight bits
(R103). -/
def execSetCursor (row col : Int) (s : State) : Host.Outcome State Fault Refusal :=
  s.present (.setCursor row col) fun s =>
    match ddramAddress s.cfg.addrPolicy row col with
    | none => s.reject
    | some a => s.sendByte (cursorCommand a) .command

/-- DDRAM_ADDR(policy, row, col) (R100): pure, reads no state but its arguments. -/
def execDdramAddr (policy : AddrPolicy) (row col : Int) (s : State) : Host.Outcome State Fault Refusal :=
  .next (s.answer (addressResult (ddramAddress policy row col)))

/-- CGRAM_ADDR(location) (R106): pure, independent of the addressing policy. -/
def execCgramAddr (location : Int) (s : State) : Host.Outcome State Fault Refusal :=
  .next (s.answer (addressResult (cgramAddress location)))

end Sys2Proof.Machine
end

