-- ==== Sys2Proof/Machine/Backlight.lean ====
section
/-! DEFINITION. Backlight control and visibility: `setBacklight`, `setCursorVisibility`
(spec/45_backlight_visibility.md). -/

namespace Sys2Proof.Machine

/-- `setBacklight(on)` (R125): `BL <- on` first (R126, log 17), so the operation's own frames carry the new flag. -/
def execSetBacklight (on : Bool) (s : State) : Host.Outcome State Fault Refusal :=
  s.present (.setBacklight on) fun s => { s with bl := on }.sendByte (backlightByte on) .command

/-- `setCursorVisibility(visible, blink)` (R129): display-control with the display always on; the two flags are
independent (R131). -/
def execSetCursorVisibility (visible blink : Bool) (s : State) : Host.Outcome State Fault Refusal :=
  s.present (.setCursorVisibility visible blink) fun s =>
    s.sendByte (displayControlByte true visible blink) .command

end Sys2Proof.Machine
end

