-- ==== Sys2Proof/Machine/Commands.lean ====
section
/-! DEFINITION. The controller bytes presented as instructions: the command vocabulary, the literals and character
data (spec/30_encoding.md R49 to R58, R67). Every controller byte, whatever its value and mode, is expanded by
SENDBYTE (R60). Log 22. -/

namespace Sys2Proof.Machine

/-- CLEARDISPLAY (R51). -/
def execClearDisplay (s : State) : Host.Outcome State Fault Refusal :=
  .next (s.sendByte CMD_CLEARDISPLAY .command)

/-- RETURNHOME (R52): no host operation issues it; as a controller byte it is sent like any other (R60). -/
def execReturnHome (s : State) : Host.Outcome State Fault Refusal :=
  .next (s.sendByte CMD_RETURNHOME .command)

/-- ENTRYMODESET (R53). -/
def execEntryModeSet (left shift : Bool) (s : State) : Host.Outcome State Fault Refusal :=
  .next (s.sendByte (entryModeByte left shift) .command)

/-- DISPLAYCONTROL (R54). -/
def execDisplayControl (display cursor blink : Bool) (s : State) : Host.Outcome State Fault Refusal :=
  .next (s.sendByte (displayControlByte display cursor blink) .command)

/-- FUNCTIONSET (R55). -/
def execFunctionSet (eightBit twoLine tallFont : Bool) (s : State) : Host.Outcome State Fault Refusal :=
  .next (s.sendByte (functionSetByte eightBit twoLine tallFont) .command)

/-- SETCGRAMADDR (R56). -/
def execSetCgramAddr (addr : BitVec 6) (s : State) : Host.Outcome State Fault Refusal :=
  .next (s.sendByte (setCgramByte addr) .command)

/-- SETDDRAMADDR (R57). -/
def execSetDdramAddr (addr : BitVec 7) (s : State) : Host.Outcome State Fault Refusal :=
  .next (s.sendByte (setDdramByte addr) .command)

/-- The literal 0x03 (R58), a full two-frame transfer (R60). -/
def execLitResync (s : State) : Host.Outcome State Fault Refusal :=
  .next (s.sendByte LIT_RESYNC .command)

/-- The literal 0x02 (R58). -/
def execLit4Bit (s : State) : Host.Outcome State Fault Refusal :=
  .next (s.sendByte LIT_4BIT .command)

/-- The literal 0x08 or 0x00 (R58): the byte alone; only the host operation `setBacklight` writes `BL`
(spec/10_state.md R12). -/
def execLitBacklight (on : Bool) (s : State) : Host.Outcome State Fault Refusal :=
  .next (s.sendByte (backlightByte on) .command)

/-- A character-mode byte, all eight bits (R67). -/
def execCharData (c : Byte) (s : State) : Host.Outcome State Fault Refusal :=
  .next (s.sendByte c .character)

end Sys2Proof.Machine
end

