-- ==== Sys2Proof/Machine/Initialisation.lean ====
section
/-! DEFINITION. The 4-bit initialisation state machine: `init` (spec/42_init.md). -/

namespace Sys2Proof.Machine

/-- The eight bytes of `init`, in order (R92): two literals of the source, then four commands built from the
vocabulary (log 8). -/
def initBytes : List Byte :=
  [LIT_RESYNC, LIT_RESYNC, LIT_RESYNC, LIT_4BIT,
   CMD_FUNCTIONSET ||| FLAG_2LINE ||| FLAG_5x10DOTS,
   CMD_DISPLAYCONTROL ||| FLAG_DISPLAYON,
   CMD_ENTRYMODESET ||| FLAG_ENTRYLEFT,
   CMD_CLEARDISPLAY]

/-- `init()` (R91): `IST <- Initializing`, then the eight byte transfers. `IST <- Ready` happens when the last of
their events has been performed (R90, `State.complete`). `BL` is not changed. -/
def execInit (s : State) : Host.Outcome State Fault Refusal :=
  s.presentInit fun s => { s with ist := .initializing }.sendBytes initBytes .command

end Sys2Proof.Machine
end

