-- ==== Sys2Proof/Machine/Text.lean ====
section
/-! DEFINITION. The custom glyph writer and text rendering: `createChar`, `writeChar`, `print`
(spec/44_glyph_text.md). -/

namespace Sys2Proof.Machine

/-- `createChar(location, pattern)` (R113): a silent reject (R115), or the set-CGRAM-address command and then the
eight rows as character bytes, unmasked (R114, log 16). No DDRAM address is restored (R116). -/
def execCreateChar (location : Int) (pattern : Glyph) (s : State) : Host.Outcome State Fault Refusal :=
  s.present (.createChar location pattern) fun s =>
    match cgramAddress location with
    | none => s.reject
    | some a => (s.sendByte (glyphCommand a) .command).sendBytes pattern.rows .character

/-- `writeChar(c)` (R117): one character byte, every code accepted. -/
def execWriteChar (c : Byte) (s : State) : Host.Outcome State Fault Refusal :=
  s.present (.writeChar c) fun s => s.sendByte c .character

/-- `print(text)` (R119): the printable prefix, each character a byte transfer of its own; the admission is checked
once for the whole call. -/
def execPrint (text : List Byte) (s : State) : Host.Outcome State Fault Refusal :=
  s.present (.print text) fun s => s.sendBytes (printable text) .character

end Sys2Proof.Machine
end

