-- ==== Sys2Proof/Machine/Transfer.lean ====
section
/-! DEFINITION. The primitives of the transfer path, presented as instructions: ENCODE, STROBE, SENDBYTE and the bus
write of one FRAME (spec/40_nibble_encoder.md, spec/41_enable_strobe.md, spec/30_encoding.md R47). They do not look
at `IST` (R77, spec/42_init.md R95) and append to `SEQ`. Log 22. -/

namespace Sys2Proof.Machine

/-- ENCODE(value, mode, backlight) (spec/40_nibble_encoder.md R70): pure; the backlight is the argument, not `BL`
(R77). -/
def execEncode (value : Byte) (mode : Mode) (backlight : Bool) (s : State) : Host.Outcome State Fault Refusal :=
  .next (s.answer (.frames (highFrame value mode backlight) (lowFrame value mode backlight)))

/-- STROBE(frame) (spec/41_enable_strobe.md R78, on every byte R87). -/
def execStrobe (frame : Byte) (s : State) : Host.Outcome State Fault Refusal :=
  .next (s.strobe frame)

/-- SENDBYTE(value, mode) (spec/41_enable_strobe.md R82). -/
def execSendByte (value : Byte) (mode : Mode) (s : State) : Host.Outcome State Fault Refusal :=
  .next (s.sendByte value mode)

/-- FRAME: one bus write of a byte in the frame format (spec/30_encoding.md R47, the table's level "bus-write").
DESIGN CHOICE, log 24. -/
def execFrame (v : Byte) (s : State) : Host.Outcome State Fault Refusal :=
  .next (s.emit [busWrite s.cfg v])

end Sys2Proof.Machine
end

