-- ==== Sys2Proof/Machine/Dispatch.lean ====
section
/-! DEFINITION. One arm per constructor of `Instr`, one meaning per arm. -/

namespace Sys2Proof.Machine

/-- The meaning of an instruction presented in a state. -/
def exec (i : Instr) (s : State) : Host.Outcome State Fault Refusal :=
  match i with
  -- host operations (spec/30_encoding.md R61)
  | .init => Sys2Proof.Machine.execInit s
  | .clear => Sys2Proof.Machine.execClear s
  | .setCursor row col => Sys2Proof.Machine.execSetCursor row col s
  | .writeChar c => Sys2Proof.Machine.execWriteChar c s
  | .print text => Sys2Proof.Machine.execPrint text s
  | .setCursorVisibility visible blink => Sys2Proof.Machine.execSetCursorVisibility visible blink s
  | .createChar location pattern => Sys2Proof.Machine.execCreateChar location pattern s
  | .setBacklight on => Sys2Proof.Machine.execSetBacklight on s
  -- primitives (R62)
  | .encode value mode backlight => Sys2Proof.Machine.execEncode value mode backlight s
  | .strobe frame => Sys2Proof.Machine.execStrobe frame s
  | .sendByte value mode => Sys2Proof.Machine.execSendByte value mode s
  | .ddramAddr policy row col => Sys2Proof.Machine.execDdramAddr policy row col s
  | .cgramAddr location => Sys2Proof.Machine.execCgramAddr location s
  -- controller bytes (R51 to R58, R67)
  | .clearDisplay => Sys2Proof.Machine.execClearDisplay s
  | .returnHome => Sys2Proof.Machine.execReturnHome s
  | .entryModeSet left shift => Sys2Proof.Machine.execEntryModeSet left shift s
  | .displayControl display cursor blink => Sys2Proof.Machine.execDisplayControl display cursor blink s
  | .functionSet eightBit twoLine tallFont => Sys2Proof.Machine.execFunctionSet eightBit twoLine tallFont s
  | .setCgramAddr addr => Sys2Proof.Machine.execSetCgramAddr addr s
  | .setDdramAddr addr => Sys2Proof.Machine.execSetDdramAddr addr s
  | .litResync => Sys2Proof.Machine.execLitResync s
  | .lit4Bit => Sys2Proof.Machine.execLit4Bit s
  | .litBacklight on => Sys2Proof.Machine.execLitBacklight on s
  | .charData c => Sys2Proof.Machine.execCharData c s
  -- one byte on the bus (R47)
  | .frame v => Sys2Proof.Machine.execFrame v s

end Sys2Proof.Machine
end

