-- ==== Sys2Proof/Machine/Step.lean ====
section
/-! DEFINITION. One step: while an operation is in progress its next event is performed; when none is, the host's
next request is presented; when there is none, the core stays idle (spec/10_state.md R14,
spec/70_reset_and_hazards.md R167). -/

namespace Sys2Proof.Machine

/-- One step of the core. -/
def step (s : State) : Host.Outcome State Fault Refusal :=
  match s.seq with
  | e :: rest => .next (s.perform e rest)
  | [] =>
    match s.takeRequest with
    | none => .next s
    | some (i, s') => if i.wellFormed then exec i s' else .refused .illFormed

/-- `s` with the instruction of a table word placed so that the very next step runs it; a word that is no
instruction places nothing. Log 27. -/
def State.withFetchWord (s : State) (nbits w : Nat) : State :=
  match decodeTableWord nbits w with
  | some i => s.place i
  | none => s

end Sys2Proof.Machine
end

