-- ==== Sys2Proof/Machine/Expansion.lean ====
section
/-! DEFINITION. The closed forms the spec derives beside its pseudocode: the byte transfer in arithmetic
(spec/41_enable_strobe.md R88), the controller bytes of each instruction (spec/30_encoding.md R61) and their number
(spec/70_reset_and_hazards.md R165). They are written from those tables and not from the meanings, so that a
statement that the two agree says something. -/

namespace Sys2Proof.Machine

/-- 1 for true, 0 for false (spec/00_scope.md R6). -/
def bitNat (b : Bool) : Nat := if b then 1 else 0

/-- `c = 8*b + m` (R88). -/
def controlNibble (mode : Mode) (backlight : Bool) : Nat :=
  8 * bitNat backlight + (match mode with | .command => 0 | .character => 1)

/-- One nibble strobed: `16*n + c`, `16*n + c + 4`, `16*n + c`, a delay after each (R88). -/
def nibbleEvents (cfg : Config) (c n : Nat) : List Event :=
  [.W cfg.busAddr (BitVec.ofNat 8 (16 * n + c)), .D cfg.strobeDelayUs,
   .W cfg.busAddr (BitVec.ofNat 8 (16 * n + c + 4)), .D cfg.strobeDelayUs,
   .W cfg.busAddr (BitVec.ofNat 8 (16 * n + c)), .D cfg.strobeDelayUs]

/-- A byte transfer in closed form, high nibble first (R88). -/
def transferEvents (cfg : Config) (backlight : Bool) (b : ControllerByte) : List Event :=
  nibbleEvents cfg (controlNibble b.mode backlight) (b.value.toNat / 16)
    ++ nibbleEvents cfg (controlNibble b.mode backlight) (b.value.toNat % 16)

/-- The transfers of a list of controller bytes under one backlight flag. -/
def transfersEvents (cfg : Config) (backlight : Bool) (bs : List ControllerByte) : List Event :=
  bs.flatMap (transferEvents cfg backlight)

/-- A command byte given by its number. -/
def commandByte (n : Nat) : ControllerByte := ⟨BitVec.ofNat 8 n, .command⟩

/-- A character byte. -/
def characterByte (c : Byte) : ControllerByte := ⟨c, .character⟩

/-- The base address of a row (spec/20_memory.md R34), or none. -/
def rowBase (policy : AddrPolicy) (row : Int) : Option Int :=
  match policy, row with
  | .twoLine, 0 => some 0x00
  | .twoLine, _ => some 0x40
  | .fourLine, 0 => some 0x00
  | .fourLine, 1 => some 0x40
  | .fourLine, 2 => some 0x14
  | .fourLine, 3 => some 0x54
  | .fourLine, _ => none

/-- The controller bytes an instruction sends (R61; controller bytes send themselves, R60; the others none). -/
def transfersOf (cfg : Config) : Instr → List ControllerByte
  | .init => [0x03, 0x03, 0x03, 0x02, 0x2C, 0x0C, 0x06, 0x01].map commandByte
  | .clear => [commandByte 0x01]
  | .setCursor row col =>
    match rowBase cfg.addrPolicy row with
    | some base => [commandByte (128 + ((base + col) % 128).toNat)]
    | none => []
  | .writeChar c => [characterByte c]
  | .print text => ((text.takeWhile (fun c => c != 0x00#8)).take 31).map characterByte
  | .setCursorVisibility visible blink => [commandByte (0x0C + 2 * bitNat visible + bitNat blink)]
  | .createChar location pattern =>
    if 0 ≤ location ∧ location < 8 then
      commandByte (0x40 + 8 * location.toNat) :: pattern.rows.map characterByte
    else []
  | .setBacklight on => [commandByte (8 * bitNat on)]
  | .encode _ _ _ => []
  | .strobe _ => []
  | .sendByte value mode => [⟨value, mode⟩]
  | .ddramAddr _ _ _ => []
  | .cgramAddr _ => []
  | .clearDisplay => [commandByte 0x01]
  | .returnHome => [commandByte 0x02]
  | .entryModeSet left shift => [commandByte (0x04 + 2 * bitNat left + bitNat shift)]
  | .displayControl display cursor blink =>
    [commandByte (0x08 + 4 * bitNat display + 2 * bitNat cursor + bitNat blink)]
  | .functionSet eightBit twoLine tallFont =>
    [commandByte (0x20 + 16 * bitNat eightBit + 8 * bitNat twoLine + 4 * bitNat tallFont)]
  | .setCgramAddr addr => [commandByte (0x40 + addr.toNat)]
  | .setDdramAddr addr => [commandByte (0x80 + addr.toNat)]
  | .litResync => [commandByte 0x03]
  | .lit4Bit => [commandByte 0x02]
  | .litBacklight on => [commandByte (8 * bitNat on)]
  | .charData c => [characterByte c]
  | .frame _ => []

/-- `BL` after an accepted instruction: only the host operation `setBacklight` writes it (spec/10_state.md R12). -/
def backlightAfter (bl : Bool) : Instr → Bool
  | .setBacklight on => on
  | _ => bl

/-- `N`, the byte transfers of a host operation (spec/70_reset_and_hazards.md R165); `rejected` says whether the
operation's one argument check fails. -/
def hostCost (rejected : Bool) : Instr → Nat
  | .init => 8
  | .clear => 1
  | .setCursor _ _ => if rejected then 0 else 1
  | .writeChar _ => 1
  | .print text => min (text.takeWhile (fun c => c != 0x00#8)).length 31
  | .setCursorVisibility _ _ => 1
  | .createChar _ _ => if rejected then 0 else 9
  | .setBacklight _ => 1
  | _ => 0

/-- The two argument checks there are (spec/60_exceptions.md R134): a glyph location, and a row under the four-line
policy. -/
def argumentRejected (cfg : Config) : Instr → Bool
  | .setCursor row _ => cfg.addrPolicy == .fourLine && decide (row < 0 ∨ 3 < row)
  | .createChar location _ => decide (location < 0 ∨ 8 ≤ location)
  | _ => false

end Sys2Proof.Machine
end

