-- ==== Sys2Proof/Machine/Observe.lean ====
section
/-! DEFINITION. What can be read off a trace: the receiver's view (spec/20_memory.md R43), the backpack's output and
the controller's pins (spec/30_encoding.md R48, spec/20_memory.md R30), and the counts and the waiting time of
spec/70_reset_and_hazards.md R165. These observe the core's output; they are no state of the core
(spec/10_state.md R22). -/

namespace Sys2Proof.Machine

/-- `latched(T)`: the bytes written with the enable bit set, in order (R43). -/
def latched : List Event → List Byte
  | [] => []
  | .W _ v :: rest => if v &&& EN_BIT != 0x00#8 then v :: latched rest else latched rest
  | .D _ :: rest => latched rest

/-- The controller byte and the backlight flag a pair of latched bytes carries (R43). -/
def recoverPair (h l : Byte) : ControllerByte × Bool :=
  (⟨(h &&& 0xF0#8) ||| ((l &&& 0xF0#8) >>> 4),
    if h &&& RS_BIT = 0x00#8 then .command else .character⟩,
   h &&& BL_BIT != 0x00#8)

/-- The byte transfers of a list of latched bytes, paired two by two from the start (R43); an unpaired last byte is
no transfer. -/
def recover : List Byte → List (ControllerByte × Bool)
  | h :: l :: rest => recoverPair h l :: recover rest
  | [_] => []
  | [] => []

/-- The labels of the command bytes a receiver recovers from a trace, in order (spec/20_memory.md R43,
spec/30_encoding.md R68); character bytes have none. -/
def commandLabels (t : List Event) : List CommandLabel :=
  (recover (latched t)).filterMap fun x =>
    match x.1.mode with
    | .command => some (classifyCommand x.1.value)
    | .character => none

/-- The bytes at which the enable line rises, `line` being its level before: there the "controller samples data"
(spec/20_memory.md R30). -/
def enableRises (line : Bool) : List Event → List Byte
  | [] => []
  | .W _ v :: rest =>
    if v &&& EN_BIT != 0x00#8 then
      if line then enableRises true rest else v :: enableRises true rest
    else enableRises false rest
  | .D _ :: rest => enableRises line rest

/-- The last byte the backpack received, which is what its eight outputs hold (spec/10_state.md R22); `none` before
the first write. -/
def backpackByte : List Event → Option Byte
  | [] => none
  | .W _ v :: rest => some ((backpackByte rest).getD v)
  | .D _ :: rest => backpackByte rest

/-- The controller's pins and the backlight switch, as the backpack drives them (spec/30_encoding.md R48). -/
structure Pins where
  d7 : Bool
  d6 : Bool
  d5 : Bool
  d4 : Bool
  backlight : Bool
  enable : Bool
  readWrite : Bool
  registerSelect : Bool
  deriving DecidableEq, Repr

/-- The wiring of a byte on the backpack (R48); bits 2 to 0 are PRESUMED by the spec (93 G5), logs 5 to 7. -/
def pins (v : Byte) : Pins where
  d7 := v.getLsbD 7
  d6 := v.getLsbD 6
  d5 := v.getLsbD 5
  d4 := v.getLsbD 4
  backlight := v &&& BL_BIT != 0x00#8
  enable := v &&& EN_BIT != 0x00#8
  readWrite := v &&& RW_BIT != 0x00#8
  registerSelect := v &&& RS_BIT != 0x00#8

/-- The bytes written, in order. -/
def writtenBytes : List Event → List Byte
  | [] => []
  | .W _ v :: rest => v :: writtenBytes rest
  | .D _ :: rest => writtenBytes rest

/-- The number of bus writes (spec/70_reset_and_hazards.md R165). -/
def busWriteCount (t : List Event) : Nat := (writtenBytes t).length

/-- The waits of the delay events, in order. -/
def delayTimes : List Event → List Nat
  | [] => []
  | .W _ _ :: rest => delayTimes rest
  | .D t :: rest => t :: delayTimes rest

/-- The number of delays (R165). -/
def delayCount (t : List Event) : Nat := (delayTimes t).length

/-- The least time in microseconds a trace waits: each `D(t)` is a lower bound (spec/20_memory.md R36). -/
def waitingTime (t : List Event) : Nat := (delayTimes t).sum

end Sys2Proof.Machine
end

