-- ==== Sys2Proof/Safety.lean ====
section
/-! DEFINITION. The terms claims are stated in: when an operation is accepted, when the environment answers, the
invariants of the machine, and what a run is. -/

namespace Sys2Proof.Machine

/-- `init` is accepted: nothing is in progress (spec/10_state.md R14, spec/42_init.md R90, R96). -/
abbrev State.AcceptsInit (s : State) : Prop := s.seq = [] ∧ s.ist ≠ .initializing

/-- Any other host operation is accepted: nothing is in progress, and either an `init` has completed or the
configuration lets operations run before it (spec/42_init.md R95). -/
abbrev State.Accepts (s : State) : Prop :=
  s.seq = [] ∧ (s.ist = .ready ∨ (s.ist = .uninitialized ∧ s.cfg.uninitPolicy = .emit))

/-- `TRANSPORT_TOTAL` and a terminating delay primitive (spec/00_scope.md R4, spec/70_reset_and_hazards.md R159). -/
abbrev State.Total (s : State) : Prop :=
  WriteReply.never ∉ s.writeReplies ∧ DelayReply.never ∉ s.delayReplies

/-- The host presents host operations only (spec/30_encoding.md R62: the primitives are never called by the host). -/
abbrev State.HostOnly (s : State) : Prop := ∀ i ∈ s.requests, i.isHostOp = true

/-- `SEQ` is not empty for the whole stay in `Initializing` (spec/42_init.md R96). -/
abbrev State.InitInProgress (s : State) : Prop := s.ist = .initializing → s.seq ≠ []

/-- Every write goes to `CFG.BUS_ADDR` (spec/20_memory.md R26) and every delay is `CFG.STROBE_DELAY_US`
(spec/20_memory.md R36). -/
def Event.own (cfg : Config) : Event → Bool
  | .W a _ => a == cfg.busAddr
  | .D t => t == cfg.strobeDelayUs

/-- Every event performed or to be performed is the core's own kind. -/
abbrev State.OwnEvents (s : State) : Prop := ∀ e ∈ s.trace ++ s.seq, e.own s.cfg = true

/-- Every event performed or to be performed belongs to a byte transfer: the whole is a concatenation of
twelve-event blocks (spec/41_enable_strobe.md R83). -/
def State.Framed (s : State) : Prop :=
  ∃ xs : List (ControllerByte × Bool),
    s.trace ++ s.seq = xs.flatMap fun x => transferEvents s.cfg x.2 x.1

/-- The invariant of a core whose host presents host operations only. -/
structure State.Inv (s : State) : Prop where
  hostOnly : s.HostOnly
  initInProgress : s.InitInProgress
  framed : s.Framed

/-- The run has ended: no operation is left to present and none is in progress (spec/70_reset_and_hazards.md R167). -/
abbrev State.Ended (s : State) : Prop := s.requests = [] ∧ s.seq = []

/-- `n` steps, stopping at a refusal: the host's `Core.run` of this machine (`runSteps_eq_run` in Laws/Run.lean). -/
def runSteps : Nat → State → Host.Outcome State Fault Refusal
  | 0, s => .next s
  | n + 1, s =>
    match step s with
    | .next t => runSteps n t
    | .fault r => .fault r
    | .refused r => .refused r

/-- What a step can be asked to avoid: the two ways a run is refused. There is no fault. -/
def Safe (o : Host.Outcome State Fault Refusal) : Prop := ∃ t, o = .next t

/-- An outcome with the transport's answers to come left out of the state. -/
def withoutReplies : Host.Outcome State Fault Refusal → Host.Outcome State Fault Refusal
  | .next s => .next { s with writeReplies := [] }
  | .fault r => .fault r
  | .refused r => .refused r

/-- The events an accepted instruction has put into `SEQ` (those already there included). -/
def eventsOf : Host.Outcome State Fault Refusal → List Event
  | .next s => s.seq
  | .fault _ => []
  | .refused _ => []

/-- Two lists of transport answers that hang at the same calls and may differ in `ok` and `error`. -/
def SameHangs : List WriteReply → List WriteReply → Prop :=
  List.Forall₂ fun a b => (a = .never ↔ b = .never)

end Sys2Proof.Machine
end

