-- ==== Sys2Proof/Certificates/Slice0/Obligations.lean ====
section
/-! DEFINITION. The statements for the provers. Each docstring names the rule it formalises; where a statement rests
on a value or a behaviour the spec marks as its own decision, or on the model's choice, it names that decision
(92 D<n>) and the log entry. -/

open Sys2Proof Sys2Proof.Machine

/-! ## Encodings -/

/-- A row's word, read as that row, gives the instruction back, with every operand at every value the word carries
(opcode_table.json; which operands a word carries is log 26). -/
def Obligations.RowWordsReadBack : Prop :=
  ∀ (policy : AddrPolicy) (backlight : Bool) (i : Instr), i.carried = true →
    i.row.read (encode policy backlight i) = some i

/-- Every word a row reads is the word the row writes: no bit of it is dropped, but for the two unused bits of
FUNCTIONSET, which are sent as 0 (spec/30_encoding.md R55). That `setCursor` and DDRAM_ADDR are read as row 0, and
that SENDBYTE's word carries the flag `BL` had, is log 26. -/
def Obligations.RowWordsWriteBack : Prop :=
  ∀ (r : Row) (bs : List Byte) (i : Instr), r.read bs = some i →
    ∃ backlight, ∀ policy,
      encode policy backlight i = if r = .functionSet then bs.map (fun v => v &&& 0xFC#8) else bs

/-- The reading that knows only the bytes agrees with the encoder on every instruction whose word is its own
(spec/30_encoding.md R68 for single bytes; the choice among shared words is log 25). -/
def Obligations.DecodeReadsBackOwnWords : Prop :=
  ∀ (policy : AddrPolicy) (backlight : Bool) (i : Instr), i.carried = true →
    i.row ∈ [Row.init, .createChar, .encode, .strobe, .sendByte, .clearDisplay, .returnHome, .entryModeSet,
      .displayControl, .functionSet, .setCgramAddr, .setDdramAddr, .litResync] →
    decode (encode policy backlight i) = .ok i

/-- A single byte is refused exactly when its highest set bit is bit 4, the shift command the core never emits
(spec/30_encoding.md R68), and every byte accepted is read as a well-formed instruction that sends that byte as one
command, the unused bits of FUNCTIONSET aside, and that is of the row R68's label names, with the address R68 gives,
but for 0x03, read as the resynchronising literal, and 0x00, read as the backlight-off payload. The reading of those
two bytes and the refusal of 0x10 to 0x1F are the model's choice, log 25; the values are 92 D4, log 8. -/
def Obligations.CommandBytesAreClassified : Prop :=
  ∀ (cfg : Config) (policy : AddrPolicy) (backlight : Bool) (v : Byte),
    (v &&& 0xF0#8 = 0x10#8 → classifyCommand v = .shift ∧ decode [v] = .error .shiftCommand) ∧
    (v &&& 0xF0#8 ≠ 0x10#8 → ∃ i, decode [v] = .ok i ∧ i.wellFormed = true ∧
      transfersOf cfg i = [⟨if i.row = .functionSet then v &&& 0xFC#8 else v, .command⟩] ∧
      encode policy backlight i = [if i.row = .functionSet then v &&& 0xFC#8 else v] ∧
      (v ≠ 0x00#8 ∧ v ≠ 0x03#8 → (classifyCommand v).row = some i.row) ∧
      (v = 0x00#8 → i = .litBacklight false) ∧ (v = 0x03#8 → i = .litResync) ∧
      (∀ a, classifyCommand v = .setDdramAddr a → i = .setDdramAddr a) ∧
      (∀ a, classifyCommand v = .setCgramAddr a → i = .setCgramAddr a))

/-- A few words written out from the patterns of the command vocabulary (spec/30_encoding.md). The core decodes
nothing, and R68 only labels a byte known to be a command: that a bare byte is read as a command byte, 0x01 as
CLEARDISPLAY and not `clear`, 0x0C as DISPLAYCONTROL, 0x97 as SETDDRAMADDR, and 0x0E as `setCursorVisibility` only
where the row is known, is the model's choice, log 25. The values of the five commands that carry no address are
92 D4, log 8 (PRESUMED). -/
def Obligations.WrittenOutWordsDecode : Prop :=
  decode [0b00000001#8] = .ok .clearDisplay ∧
  decode [0b00000110#8] = .ok (.entryModeSet true false) ∧
  decode [0b00001100#8] = .ok (.displayControl true false false) ∧
  decode [0b00101100#8] = .ok (.functionSet false true true) ∧
  decode [0b01011000#8] = .ok (.setCgramAddr 24#6) ∧
  decode [0b10010111#8] = .ok (.setDdramAddr 0x17#7) ∧
  Row.setCursorVisibility.read [0b00001110#8] = some (.setCursorVisibility true false)

/-! ## The step -/

/-- When nothing is in progress and the host's next request is a well-formed instruction, the step is that
instruction's meaning in the state with the request taken (spec/10_state.md R14, R16). -/
def Obligations.StepRunsTheNextRequest : Prop :=
  ∀ (s : State) (i : Instr) (rest : List Instr),
    s.seq = [] → s.requests = i :: rest → i.wellFormed = true →
    step s = exec i { s with requests := rest }

/-- A table word that decodes is what the very next step runs (the model's way to place a word, log 27). -/
def Obligations.PlacedWordIsRunNext : Prop :=
  ∀ (s : State) (nbits w : Nat) (i : Instr), decodeTableWord nbits w = some i →
    step (s.withFetchWord nbits w) = exec i { s with seq := [], ist := s.bootedFor i }

/-- While events remain and the environment answers, a step performs exactly the head event: it leaves `SEQ`, joins
the trace and uses up one answer; the last event of an `init` makes the core `Ready` (spec/10_state.md R14,
spec/42_init.md R90; logs 12, 13, 14, 28). -/
def Obligations.StepPerformsTheHeadEvent : Prop :=
  ∀ (s : State) (e : Event) (rest : List Event), s.seq = e :: rest → s.Total →
    ∃ t, step s = .next t ∧ t.seq = rest ∧ t.trace = s.trace ++ [e] ∧
      t.ist = (if s.ist = .initializing ∧ rest = [] then .ready else s.ist) ∧
      t.cfg = s.cfg ∧ t.bl = s.bl ∧ t.requests = s.requests ∧ t.result = s.result ∧
      (match e with
        | .W _ _ => t.writeReplies = s.writeReplies.drop 1 ∧ t.delayReplies = s.delayReplies
        | .D _ => t.writeReplies = s.writeReplies ∧ t.delayReplies = s.delayReplies.drop 1)

/-- A bus write the transport never answers stays at the head of `SEQ` for ever and nothing else happens
(spec/20_memory.md R37, 92 D13; log 13). That the trace does not record the hung call is the model's choice, log 12. -/
def Obligations.HungWriteBlocksForEver : Prop :=
  ∀ (s : State) (a : BusAddress) (v : Byte) (rest : List Event) (replies : List WriteReply) (n : Nat),
    s.seq = .W a v :: rest → s.writeReplies = .never :: replies → runSteps n s = .next s

/-- Event by event is the same as all at once: with an environment that answers, as many steps as there are events
perform them all, in order, and nothing else (spec/10_state.md R14, spec/20_memory.md R38; logs 12 to 14; when `IST`
becomes `Ready`, log 28). -/
def Obligations.OperationDrainsToItsWholeTrace : Prop :=
  ∀ s : State, s.Total →
    runSteps s.seq.length s = .next { s with
      seq := []
      trace := s.trace ++ s.seq
      ist := if s.seq ≠ [] ∧ s.ist = .initializing then .ready else s.ist
      writeReplies := s.writeReplies.drop (busWriteCount s.seq)
      delayReplies := s.delayReplies.drop (delayCount s.seq) }

/-- An `init` presented to a core at rest ends `Ready` after 97 steps, with exactly its 96 events added to the trace
and the backlight flag as it was (spec/42_init.md R91, R93, R94; values 92 D1, D2, D4, D22, logs 5, 6, 8). -/
def Obligations.InitRunsToReady : Prop :=
  ∀ (s : State) (rest : List Instr), s.AcceptsInit → s.Total → s.requests = .init :: rest →
    ∃ t, runSteps 97 s = .next t ∧ t.ist = .ready ∧ t.seq = [] ∧ t.bl = s.bl ∧ t.requests = rest ∧
      t.trace = s.trace ++ [0, 3, 0, 3, 0, 3, 0, 2, 2, 12, 0, 12, 0, 6, 0, 1].flatMap
        (nibbleEvents s.cfg (8 * bitNat s.bl))

/-- The transport's `ok` or `error` is discarded: two runs whose transports hang at the same calls and differ only in
`ok` and `error` agree on everything but those answers; and a write answered `ok` or `error` is performed and
recorded alike (spec/20_memory.md R27). -/
def Obligations.TransportErrorsAreIgnored : Prop :=
  (∀ (s : State) (replies replies' : List WriteReply) (n : Nat), SameHangs replies replies' →
    withoutReplies (runSteps n { s with writeReplies := replies }) =
      withoutReplies (runSteps n { s with writeReplies := replies' })) ∧
  (∀ (s : State) (a : BusAddress) (v : Byte) (rest : List Event) (r : WriteReply) (replies : List WriteReply),
    s.seq = .W a v :: rest → s.writeReplies = r :: replies → r ≠ .never →
    ∃ t, step s = .next t ∧ t.seq = rest ∧ t.trace = s.trace ++ [.W a v])

/-- A step is refused only for an operation other than `init` before `init` under the refusing policy
(spec/42_init.md R95, 92 D10, log 10), or for a FRAME whose reserved bit is set: spec/30_encoding.md R47 says that the
bit is always 0, and that such a FRAME is refused is the model's choice, log 24. -/
def Obligations.RefusalsAreOnlyThese : Prop :=
  ∀ (s : State) (r : Refusal), step s = .refused r →
    s.seq = [] ∧ ∃ i rest, s.requests = i :: rest ∧
      ((r = .beforeInit ∧ i.isHostOp = true ∧ i ≠ .init ∧ s.ist = .uninitialized ∧ s.cfg.uninitPolicy = .refuse) ∨
       (r = .illFormed ∧ ∃ v, i = .frame v ∧ v &&& RW_BIT ≠ 0x00#8))

/-! ## Reset and invariants -/

/-- Construction leaves the values of spec/10_state.md R20, for every configuration, and the invariants hold there;
the inputs and the result are the model's own fields (logs 13, 14, 20, 23). -/
def Obligations.ConstructionLeavesTheResetValues : Prop :=
  ∀ cfg : Config,
    (State.construct cfg).cfg = cfg ∧ (State.construct cfg).bl = cfg.blReset ∧
    (State.construct cfg).ist = .uninitialized ∧ (State.construct cfg).seq = [] ∧
    (State.construct cfg).trace = [] ∧ (State.construct cfg).Inv ∧ (State.construct cfg).OwnEvents

/-- `CFG` is never written after construction (spec/10_state.md R11). -/
def Obligations.ConfigurationNeverChanges : Prop :=
  ∀ s t : State, step s = .next t → t.cfg = s.cfg

/-- While the host presents host operations only, every step keeps this: `SEQ` is not empty during an `init`, and the
trace with `SEQ` is a concatenation of byte transfers (spec/41_enable_strobe.md R83, spec/42_init.md R96; that the
host presents nothing else is spec/30_encoding.md R62, log 22). -/
def Obligations.EveryStepKeepsByteTransfersWhole : Prop :=
  ∀ s t : State, s.Inv → step s = .next t → t.Inv

/-- Whatever is presented, a primitive or a controller byte too, every step keeps this: `SEQ` is not empty during an
`init` (spec/42_init.md R96), and every event goes to the core's own address or waits the core's own delay
(spec/20_memory.md R26, R36). -/
def Obligations.EveryStepKeepsEventsOwn : Prop :=
  ∀ s t : State, s.InitInProgress → s.OwnEvents → step s = .next t → t.InitInProgress ∧ t.OwnEvents

/-- The trace only grows, by at most one event a step, and only by the head of `SEQ` (spec/20_memory.md R38). -/
def Obligations.TraceOnlyGrowsByTheHeadEvent : Prop :=
  ∀ s t : State, step s = .next t →
    t.trace = s.trace ∨ ∃ e rest, s.seq = e :: rest ∧ t.seq = rest ∧ t.trace = s.trace ++ [e]

/-- `IST` moves only along `Uninitialized → Initializing → Ready → Initializing`: the one way out of `Uninitialized`
is an `init` accepted, the one way into `Ready` is the last event of an `init`, and nothing returns to
`Uninitialized` (spec/42_init.md R90, spec/10_state.md R13; C1). -/
def Obligations.InitialisationMovesOnlyForward : Prop :=
  ∀ s t : State, step s = .next t → t.ist ≠ s.ist →
    (s.ist ≠ .initializing ∧ t.ist = .initializing ∧ s.seq = [] ∧ ∃ rest, s.requests = .init :: rest) ∨
    (s.ist = .initializing ∧ t.ist = .ready ∧ ∃ e, s.seq = [e])

/-- `BL` is written only by `setBacklight`, and with its argument (spec/10_state.md R12). -/
def Obligations.OnlySetBacklightWritesTheFlag : Prop :=
  ∀ s t : State, step s = .next t → t.bl ≠ s.bl → s.seq = [] ∧ ∃ rest, s.requests = .setBacklight t.bl :: rest

/-! ## Primitives -/

/-- ENCODE is DOC0's two formulas, for every value, mode and backlight, and touches nothing but the model's result
field (log 23); the mode bit and the backlight bit stand by name. -/
def Obligations.EncodeIsTheTwoFormulas : Prop :=
  ∀ (s : State) (v : Byte) (m : Mode) (b : Bool),
    exec (.encode v m b) s = .next { s with
      result := .frames
        ((if m = .character then MODE_CHARACTER else MODE_COMMAND) ||| (v &&& 0xF0#8) ||| (if b then BL_BIT else 0x00#8))
        ((if m = .character then MODE_CHARACTER else MODE_COMMAND) ||| ((v <<< 4) &&& 0xF0#8)
          ||| (if b then BL_BIT else 0x00#8)) }

/-- ENCODE's frames field by field: the nibble above, then backlight, then two zero bits, then the mode
(spec/40_nibble_encoder.md R70, R74; positions 92 D1, D3, logs 5 and 7). -/
def Obligations.EncodeFramesFieldByField : Prop :=
  ∀ (s : State) (v : Byte) (m : Mode) (b : Bool), ∃ high low,
    exec (.encode v m b) s = .next { s with result := .frames high low } ∧
    high.toNat = 16 * (v.toNat / 16) + controlNibble m b ∧ low.toNat = 16 * (v.toNat % 16) + controlNibble m b ∧
    high &&& (EN_BIT ||| RW_BIT) = 0x00#8 ∧ low &&& (EN_BIT ||| RW_BIT) = 0x00#8

/-- ENCODE loses nothing: its arguments are recovered from the two frames, and different arguments give different
frames (spec/40_nibble_encoder.md R75; positions 92 D1, log 5). -/
def Obligations.EncodeLosesNothing : Prop :=
  ∀ (s : State) (v : Byte) (m : Mode) (b : Bool) (high low : Byte),
    exec (.encode v m b) s = .next { s with result := .frames high low } →
    recoverPair high low = (⟨v, m⟩, b) ∧
    ∀ (v' : Byte) (m' : Mode) (b' : Bool), exec (.encode v' m' b') s = exec (.encode v m b) s →
      v' = v ∧ m' = m ∧ b' = b

/-- STROBE on every byte: the six events, the enable bit by name, nothing else (spec/41_enable_strobe.md R78, R87). -/
def Obligations.StrobeEmitsSixEvents : Prop :=
  ∀ (s : State) (f : Byte),
    exec (.strobe f) s = .next { s with
      seq := s.seq ++
        [.W s.cfg.busAddr f, .D s.cfg.strobeDelayUs, .W s.cfg.busAddr (f ||| EN_BIT), .D s.cfg.strobeDelayUs,
         .W s.cfg.busAddr (f &&& ~~~EN_BIT), .D s.cfg.strobeDelayUs] }

/-- A frame with its enable bit clear is strobed as `frame`, `frame + 4`, `frame` (spec/41_enable_strobe.md R81;
EN_BIT = 0x04 is 92 D2, log 6). -/
def Obligations.StrobePulsesOnlyTheEnableLine : Prop :=
  ∀ (s : State) (f : Byte), f.getLsbD 2 = false →
    exec (.strobe f) s = .next { s with
      seq := s.seq ++
        [.W s.cfg.busAddr f, .D s.cfg.strobeDelayUs, .W s.cfg.busAddr (f + 4#8), .D s.cfg.strobeDelayUs,
         .W s.cfg.busAddr f, .D s.cfg.strobeDelayUs] }

/-- SENDBYTE in closed form, under the flag `BL` holds, and nothing else (spec/41_enable_strobe.md R82, R88;
positions 92 D1, D2, logs 5 and 6). -/
def Obligations.SendByteInClosedForm : Prop :=
  ∀ (s : State) (v : Byte) (m : Mode),
    exec (.sendByte v m) s = .next { s with seq := s.seq ++ transferEvents s.cfg s.bl ⟨v, m⟩ }

/-- DDRAM_ADDR under both policies, on every row and column (spec/43_cursor_addressing.md R100); the result stands in
the model's result field (log 23). -/
def Obligations.DdramAddressByPolicy : Prop :=
  ∀ (s : State) (row col : Int),
    exec (.ddramAddr .twoLine row col) s =
      .next { s with result := .address ((if row = 0 then 0x00 else 0x40) + col) } ∧
    exec (.ddramAddr .fourLine row col) s = .next { s with
      result :=
        if row = 0 then .address (0x00 + col)
        else if row = 1 then .address (0x40 + col)
        else if row = 2 then .address (0x14 + col)
        else if row = 3 then .address (0x54 + col)
        else .reject }

/-- CGRAM_ADDR on every location, and the command byte formed from it (spec/43_cursor_addressing.md R106); the result
stands in the model's result field (log 23). -/
def Obligations.CgramAddressIsEightTimesTheSlot : Prop :=
  ∀ (s : State) (location : Int),
    exec (.cgramAddr location) s = .next { s with
      result := if location < 0 ∨ location ≥ 8 then .reject else .address (location * 8) } ∧
    (0 ≤ location ∧ location < 8 →
      (glyphCommand (location * 8)).toNat = 0x40 + (location * 8).toNat ∧
      (glyphCommand (location * 8)).toNat ≤ 0x78)

/-- The seven commands of the vocabulary, each sent as one command byte, and nothing else (spec/30_encoding.md R51 to
R57, R60; values 92 D1, D2, D4, logs 5, 6, 8; that a row presented by itself is sent is log 22). -/
def Obligations.VocabularyCommandsSendTheirBytes : Prop :=
  ∀ (s : State) (x y z : Bool) (a6 : BitVec 6) (a7 : BitVec 7),
    exec .clearDisplay s = .next { s with seq := s.seq ++ transferEvents s.cfg s.bl (commandByte 0x01) } ∧
    exec .returnHome s = .next { s with seq := s.seq ++ transferEvents s.cfg s.bl (commandByte 0x02) } ∧
    exec (.entryModeSet x y) s = .next { s with
      seq := s.seq ++ transferEvents s.cfg s.bl (commandByte (0x04 + 2 * bitNat x + bitNat y)) } ∧
    exec (.displayControl x y z) s = .next { s with
      seq := s.seq ++ transferEvents s.cfg s.bl (commandByte (0x08 + 4 * bitNat x + 2 * bitNat y + bitNat z)) } ∧
    exec (.functionSet x y z) s = .next { s with
      seq := s.seq ++ transferEvents s.cfg s.bl (commandByte (0x20 + 16 * bitNat x + 8 * bitNat y + 4 * bitNat z)) } ∧
    exec (.setCgramAddr a6) s = .next { s with
      seq := s.seq ++ transferEvents s.cfg s.bl (commandByte (0x40 + a6.toNat)) } ∧
    exec (.setDdramAddr a7) s = .next { s with
      seq := s.seq ++ transferEvents s.cfg s.bl (commandByte (0x80 + a7.toNat)) }

/-- The three literals and character data, each sent as one byte, and nothing else: the literal of `setBacklight`
by itself does not write `BL` (spec/30_encoding.md R58, R60, R67, spec/10_state.md R12; logs 5, 6, 22). -/
def Obligations.LiteralsAndCharactersSendTheirBytes : Prop :=
  ∀ (s : State) (on : Bool) (c : Byte),
    exec .litResync s = .next { s with seq := s.seq ++ transferEvents s.cfg s.bl (commandByte 0x03) } ∧
    exec .lit4Bit s = .next { s with seq := s.seq ++ transferEvents s.cfg s.bl (commandByte 0x02) } ∧
    exec (.litBacklight on) s = .next { s with
      seq := s.seq ++ transferEvents s.cfg s.bl (commandByte (if on then 0x08 else 0x00)) } ∧
    exec (.charData c) s = .next { s with seq := s.seq ++ transferEvents s.cfg s.bl ⟨c, .character⟩ }

/-- A FRAME is one bus write of its byte to the core's address, and nothing else (spec/30_encoding.md R47; that it is
one write and no strobe is the model's choice, log 24). -/
def Obligations.FrameIsOneBusWrite : Prop :=
  ∀ (s : State) (v : Byte),
    exec (.frame v) s = .next { s with seq := s.seq ++ [.W s.cfg.busAddr v] }

/-! ## Host operations -/

/-- `init` accepted: `IST` is `Initializing`, `SEQ` holds the 96 events of the sixteen nibbles, and nothing else
changes (spec/42_init.md R91, R93; from `Ready` too, 92 D11, log 11; values 92 D1, D2, D4, D22, logs 5, 6, 8). -/
def Obligations.InitEmitsTheColdStartSequence : Prop :=
  ∀ s : State, s.AcceptsInit →
    exec .init s = .next { s with
      ist := .initializing
      seq := [0, 3, 0, 3, 0, 3, 0, 2, 2, 12, 0, 12, 0, 6, 0, 1].flatMap (nibbleEvents s.cfg (8 * bitNat s.bl)) }

/-- `clear` accepted: the clear-display byte and nothing else, no wait added (spec/43_cursor_addressing.md R109, R110;
value 92 D4, log 8; waits 92 D20, log 19). -/
def Obligations.ClearSendsOneCommand : Prop :=
  ∀ s : State, s.Accepts →
    exec .clear s = .next { s with
      seq := nibbleEvents s.cfg (8 * bitNat s.bl) 0 ++ nibbleEvents s.cfg (8 * bitNat s.bl) 1 }

/-- `setCursor` accepted, on every column: bit 7 and the address modulo 128, under either policy, and nothing else
(spec/43_cursor_addressing.md R101, R103, R104; 92 D8, D9, D17, logs 9 and 18). -/
def Obligations.SetCursorSendsTheWrappedAddress : Prop :=
  ∀ (s : State) (row col : Int), s.Accepts →
    (s.cfg.addrPolicy = .twoLine →
      exec (.setCursor row col) s = .next { s with
        seq := transferEvents s.cfg s.bl (commandByte (128 + (((if row = 0 then 0x00 else 0x40) + col) % 128).toNat)) }) ∧
    (s.cfg.addrPolicy = .fourLine → ∀ base : Int,
      (row = 0 ∧ base = 0x00) ∨ (row = 1 ∧ base = 0x40) ∨ (row = 2 ∧ base = 0x14) ∨ (row = 3 ∧ base = 0x54) →
      exec (.setCursor row col) s = .next { s with
        seq := transferEvents s.cfg s.bl (commandByte (128 + ((base + col) % 128).toNat)) })

/-- Under the four-line policy a row outside 0 to 3 is a silent no-op, whatever the column
(spec/43_cursor_addressing.md R102). -/
def Obligations.SetCursorRejectsOtherRows : Prop :=
  ∀ (s : State) (row col : Int), s.Accepts → s.cfg.addrPolicy = .fourLine → (row < 0 ∨ row > 3) →
    exec (.setCursor row col) s = .next s

/-- `writeChar` accepted: the character byte, every code, and nothing else (spec/44_glyph_text.md R117; positions
92 D1, D2, logs 5 and 6). -/
def Obligations.WriteCharSendsTheCharacter : Prop :=
  ∀ (s : State) (c : Byte), s.Accepts →
    exec (.writeChar c) s = .next { s with seq := transferEvents s.cfg s.bl ⟨c, .character⟩ }

/-- `print` accepted: each character before the first 0x00, at most 31 of them, and nothing else
(spec/44_glyph_text.md R119, R121; the terminator is 92 D14, log 15; positions logs 5 and 6). -/
def Obligations.PrintStreamsItsCharacters : Prop :=
  ∀ (s : State) (text : List Byte), s.Accepts →
    exec (.print text) s = .next { s with
      seq := transfersEvents s.cfg s.bl
        (((text.takeWhile (fun c => c != 0x00#8)).take 31).map characterByte) }

/-- Characters from the 32nd on are dropped silently, whatever the display's width: the text cut to 31 has the very
same effect, nothing but the events records it, and a text without 0x00 sends its first 31 characters, each as
`writeChar` does (spec/44_glyph_text.md R120). -/
def Obligations.PrintDropsFromTheThirtySecond : Prop :=
  ∀ (s : State) (text : List Byte), s.Accepts →
    ∃ t, exec (.print text) s = .next t ∧ exec (.print (text.take 31)) s = .next t ∧
      t = { s with seq := t.seq } ∧
      (0x00#8 ∉ text → t.seq.length = 12 * min text.length 31 ∧
        t.seq = (text.take 31).flatMap fun c => eventsOf (exec (.writeChar c) s))

/-- `print` is a `writeChar` for each character it sends (spec/30_encoding.md R64, spec/44_glyph_text.md R119). -/
def Obligations.PrintIsWriteCharForEach : Prop :=
  ∀ (s : State) (text : List Byte), s.Accepts →
    eventsOf (exec (.print text) s) =
      ((text.takeWhile (fun c => c != 0x00#8)).take 31).flatMap fun c => eventsOf (exec (.writeChar c) s)

/-- `setCursorVisibility` accepted: display-control with the display on and the two flags, independent of each other,
and nothing else (spec/45_backlight_visibility.md R129, R130, R131; values 92 D4, D28, logs 8 and 31). -/
def Obligations.SetCursorVisibilitySendsTheFlags : Prop :=
  ∀ (s : State) (visible blink : Bool), s.Accepts →
    exec (.setCursorVisibility visible blink) s = .next { s with
      seq := transferEvents s.cfg s.bl (commandByte (0x0C + 2 * bitNat visible + bitNat blink)) }

/-- `createChar` accepted: the glyph address and then the eight rows, nine byte transfers, and nothing else: no
address is sent afterwards (spec/44_glyph_text.md R113, R114, R116; unmasked rows 92 D15, log 16; positions
logs 5 and 6). -/
def Obligations.CreateCharSendsAddressAndRows : Prop :=
  ∀ (s : State) (location : Int) (p : Glyph), s.Accepts → 0 ≤ location → location < 8 →
    exec (.createChar location p) s = .next { s with
      seq := transfersEvents s.cfg s.bl
        [commandByte (0x40 + 8 * location.toNat), characterByte p.row0, characterByte p.row1,
         characterByte p.row2, characterByte p.row3, characterByte p.row4, characterByte p.row5,
         characterByte p.row6, characterByte p.row7] }

/-- `createChar` with a location outside 0 to 7 is a silent no-op, whatever the pattern
(spec/44_glyph_text.md R115). -/
def Obligations.CreateCharRejectsOtherSlots : Prop :=
  ∀ (s : State) (location : Int) (p : Glyph), s.Accepts → (location < 0 ∨ location ≥ 8) →
    exec (.createChar location p) s = .next s

/-- `setBacklight` accepted: `BL` takes the argument and the operation's own frames already carry it; nothing else
(spec/45_backlight_visibility.md R125, R126; order for off 92 D16, log 17; positions logs 5 and 6). -/
def Obligations.SetBacklightWritesTheFlagFirst : Prop :=
  ∀ (s : State) (on : Bool), s.Accepts →
    exec (.setBacklight on) s = .next { s with
      bl := on
      seq := transferEvents s.cfg on (commandByte (if on then 0x08 else 0x00)) }

/-- A second `setBacklight` with the same argument, invoked when the first has returned, emits the same events and
leaves `BL` as it was, and every byte of both has the backlight bit as asked (spec/45_backlight_visibility.md R128). -/
def Obligations.SetBacklightTwiceIsTheSame : Prop :=
  ∀ (s : State) (on : Bool), s.Accepts →
    ∃ t, exec (.setBacklight on) s = .next t ∧ exec (.setBacklight on) { t with seq := [] } = .next t ∧
      ∀ v ∈ writtenBytes t.seq, (v &&& BL_BIT != 0x00#8) = on

/-- Every accepted host operation that does not set the backlight leaves `BL` as it was, and every byte it writes
carries it (spec/45_backlight_visibility.md R127, spec/40_nibble_encoder.md R73). -/
def Obligations.LaterTrafficCarriesTheBacklight : Prop :=
  ∀ (s t : State) (i : Instr), i.isHostOp = true → s.seq = [] → s.ist ≠ .initializing →
    (∀ on, i ≠ .setBacklight on) → exec i s = .next t →
    t.bl = s.bl ∧ ∀ v ∈ writtenBytes t.seq, (v &&& BL_BIT != 0x00#8) = s.bl

/-- Every host operation but `init` is refused before `init` under the refusing policy, one with an invalid argument
too (spec/42_init.md R95, spec/60_exceptions.md R140; 92 D10, log 10). -/
def Obligations.GatedOperationsAreRefusedBeforeInit : Prop :=
  ∀ (s : State) (i : Instr), i.isHostOp = true → i ≠ .init → s.seq = [] → s.ist = .uninitialized →
    s.cfg.uninitPolicy = .refuse → exec i s = .refused .beforeInit

/-- Under the emitting policy a host operation before `init` does what it does in `Ready`, and `IST` stays
`Uninitialized` (spec/42_init.md R95; 92 D10, log 10). -/
def Obligations.EmitPolicyActsAsReady : Prop :=
  ∀ (s : State) (i : Instr), i.isHostOp = true → i ≠ .init → s.seq = [] → s.ist = .uninitialized →
    s.cfg.uninitPolicy = .emit →
    ∃ t, exec i { s with ist := .ready } = .next t ∧ exec i s = .next { t with ist := .uninitialized }

/-- A host operation presented while an operation is in progress is not accepted: it waits as the next request and
nothing else changes (spec/10_state.md R14, spec/42_init.md R96; that it waits is log 21). -/
def Obligations.HostOperationsWaitWhileBusy : Prop :=
  ∀ (s : State) (i : Instr), i.isHostOp = true → (s.seq ≠ [] ∨ s.ist = .initializing) →
    exec i s = .next { s with requests := i :: s.requests }

/-- The frame of every host operation: the configuration, the trace, the inputs and the result field are as before,
`BL` unless it is `setBacklight`, `IST` unless it is `init`; and while busy `BL`, `IST` and `SEQ` too
(spec/10_state.md R10, R12, R13). -/
def Obligations.HostOperationsFrame : Prop :=
  ∀ (s t : State) (i : Instr), i.isHostOp = true → exec i s = .next t →
    t.cfg = s.cfg ∧ t.trace = s.trace ∧ t.writeReplies = s.writeReplies ∧ t.delayReplies = s.delayReplies ∧
    t.result = s.result ∧
    ((∀ on, i ≠ .setBacklight on) → t.bl = s.bl) ∧ (i ≠ .init → t.ist = s.ist) ∧
    (s.AcceptsInit → t.requests = s.requests) ∧
    (¬ s.AcceptsInit → t.bl = s.bl ∧ t.ist = s.ist ∧ t.seq = s.seq)

/-- The frame of every row that is no host operation: nothing but `SEQ`, which only grows, and the result field; the
pure primitives ENCODE, DDRAM_ADDR and CGRAM_ADDR leave `SEQ` too, and all the others the result
(spec/30_encoding.md R62, spec/40_nibble_encoder.md R77; logs 22 and 23). -/
def Obligations.InternalRowsFrame : Prop :=
  ∀ (s : State) (i : Instr), i.isHostOp = false →
    ∃ xs r, exec i s = .next { s with seq := s.seq ++ xs, result := r } ∧
      (if i.row ∈ [Row.encode, .ddramAddr, .cgramAddr] then xs = [] else r = s.result) ∧
      ∀ e ∈ xs, e.own s.cfg = true

/-- The pseudocode of every accepted host operation agrees with the table of the bytes it emits: exactly those byte
transfers, in order, under the flag `BL` has after the operation's own write (spec/30_encoding.md R61,
spec/41_enable_strobe.md R83, R85; values 92 D1, D2, D4, D14 to D17, D20, logs 5, 6, 8, 15 to 19). -/
def Obligations.HostOperationsEmitTheirTable : Prop :=
  ∀ (s : State) (i : Instr), i.isHostOp = true →
    ((i = .init ∧ s.AcceptsInit) ∨ (i ≠ .init ∧ s.Accepts)) →
    exec i s = .next { s with
      bl := backlightAfter s.bl i
      ist := if i = .init then .initializing else s.ist
      seq := transfersEvents s.cfg (backlightAfter s.bl i) (transfersOf s.cfg i) }

/-- The cost of every accepted host operation: twelve events a byte transfer, six of them writes and six delays, the
least waiting time `6 * N` strobe delays, and `N` as the table gives it (spec/70_reset_and_hazards.md R165). That
`print` counts the characters before its first 0x00 is spec/44_glyph_text.md R121 (92 D14, log 15), that no other wait
is added is 92 D20, log 19, and that the two-line policy rejects no row is 92 D17, log 18. -/
def Obligations.HostOperationsCost : Prop :=
  ∀ (s t : State) (i : Instr), i.isHostOp = true → s.seq = [] → s.ist ≠ .initializing → exec i s = .next t →
    t.seq.length = 12 * hostCost (argumentRejected s.cfg i) i ∧
    busWriteCount t.seq = 6 * hostCost (argumentRejected s.cfg i) i ∧
    delayCount t.seq = 6 * hostCost (argumentRejected s.cfg i) i ∧
    waitingTime t.seq = 6 * hostCost (argumentRejected s.cfg i) i * s.cfg.strobeDelayUs

/-- The command bytes the host operations can emit are those of the list of spec/30_encoding.md R68 and no other
(values 92 D4, log 8). -/
def Obligations.OnlyListedCommandBytesAreEmitted : Prop :=
  ∀ (s t : State) (i : Instr), i.isHostOp = true → s.seq = [] → s.ist ≠ .initializing → exec i s = .next t →
    ∀ x ∈ recover (latched t.seq), x.1.mode = .command →
      x.1.value ∈ [0x00#8, 0x01#8, 0x02#8, 0x03#8, 0x06#8, 0x08#8, 0x0C#8, 0x0D#8, 0x0E#8, 0x0F#8, 0x2C#8] ∨
      (∃ k < 8, x.1.value = BitVec.ofNat 8 (0x40 + 8 * k)) ∨ x.1.value ≥ 0x80#8

/-! ## What a receiver sees -/

/-- From the trace of any list of byte transfers a receiver recovers exactly that list, values, modes and backlight
(spec/20_memory.md R43; positions 92 D1, D2, logs 5 and 6). -/
def Obligations.ReceiverRecoversTheTransfers : Prop :=
  ∀ (cfg : Config) (xs : List (ControllerByte × Bool)),
    recover (latched (xs.flatMap fun x => transferEvents cfg x.2 x.1)) = xs

/-- In a trace of byte transfers the read/write bit is never set, and the enable line rises exactly at the latched
bytes (spec/20_memory.md R28, R30, spec/40_nibble_encoder.md R74; positions 92 D2, D3, logs 6 and 7). -/
def Obligations.EnableRisesAtEveryLatchedByte : Prop :=
  ∀ s : State, s.Framed →
    enableRises false (s.trace ++ s.seq) = latched (s.trace ++ s.seq) ∧
    ∀ v ∈ writtenBytes (s.trace ++ s.seq), v &&& RW_BIT = 0x00#8

/-! ## Labels of command bytes, and a hung delay -/

/-- The label of a command byte, range by range: the highest set bit decides, and the two address commands carry what
is below it; 0x03 is labelled RETURNHOME and 0x00 no command (spec/30_encoding.md R68, which the spec takes from
general knowledge and derives; the vocabulary's values are 92 D4, log 8). -/
def Obligations.CommandLabelsFollowTheHighestSetBit : Prop :=
  ∀ v : Byte, classifyCommand v =
    if 0x80 ≤ v.toNat then .setDdramAddr (BitVec.ofNat 7 (v.toNat - 0x80))
    else if 0x40 ≤ v.toNat then .setCgramAddr (BitVec.ofNat 6 (v.toNat - 0x40))
    else if 0x20 ≤ v.toNat then .functionSet
    else if 0x10 ≤ v.toNat then .shift
    else if 0x08 ≤ v.toNat then .displayControl
    else if 0x04 ≤ v.toNat then .entryModeSet
    else if 0x02 ≤ v.toNat then .returnHome
    else if v.toNat = 1 then .clearDisplay
    else .noCommand

/-- The labels a receiver gives the command bytes of an accepted host operation: those of its table row, in order, and
never a shift (spec/30_encoding.md R61, R68, spec/20_memory.md R43; positions 92 D1, D2, logs 5 and 6; values 92 D4,
log 8). -/
def Obligations.HostOperationsAreLabelledByTheirTable : Prop :=
  ∀ (s t : State) (i : Instr), i.isHostOp = true → s.seq = [] → s.ist ≠ .initializing → exec i s = .next t →
    commandLabels t.seq =
      ((transfersOf s.cfg i).filter fun b => b.mode == .command).map (fun b => classifyCommand b.value) ∧
    .shift ∉ commandLabels t.seq

/-- A delay the delay primitive never answers stays at the head of `SEQ` for ever and nothing else happens
(spec/70_reset_and_hazards.md R159; log 14). That the trace does not record the hung call is the model's choice,
log 12. -/
def Obligations.HungDelayBlocksForEver : Prop :=
  ∀ (s : State) (d : Nat) (rest : List Event) (replies : List DelayReply) (n : Nat),
    s.seq = .D d :: rest → s.delayReplies = .never :: replies → runSteps n s = .next s
end

