-- ==== Sys2Proof/Laws/State.lean ====
section
/-! SUPPORT. What each state operation does to each field, true by unfolding it once, and the few that cancel. -/

namespace Sys2Proof.Machine

variable (s : State)

/-! ## Construction -/

@[simp] theorem State.construct_cfg (c : Config) : (State.construct c).cfg = c := rfl
@[simp] theorem State.construct_bl (c : Config) : (State.construct c).bl = c.blReset := rfl
@[simp] theorem State.construct_ist (c : Config) : (State.construct c).ist = .uninitialized := rfl
@[simp] theorem State.construct_seq (c : Config) : (State.construct c).seq = [] := rfl
@[simp] theorem State.construct_trace (c : Config) : (State.construct c).trace = [] := rfl
@[simp] theorem State.construct_requests (c : Config) : (State.construct c).requests = [] := rfl
@[simp] theorem State.construct_writeReplies (c : Config) : (State.construct c).writeReplies = [] := rfl
@[simp] theorem State.construct_delayReplies (c : Config) : (State.construct c).delayReplies = [] := rfl

/-! ## Emitting -/

@[simp] theorem State.emit_cfg (xs : List Event) : (s.emit xs).cfg = s.cfg := rfl
@[simp] theorem State.emit_bl (xs : List Event) : (s.emit xs).bl = s.bl := rfl
@[simp] theorem State.emit_ist (xs : List Event) : (s.emit xs).ist = s.ist := rfl
@[simp] theorem State.emit_seq (xs : List Event) : (s.emit xs).seq = s.seq ++ xs := rfl
@[simp] theorem State.emit_trace (xs : List Event) : (s.emit xs).trace = s.trace := rfl
@[simp] theorem State.emit_requests (xs : List Event) : (s.emit xs).requests = s.requests := rfl
@[simp] theorem State.emit_writeReplies (xs : List Event) : (s.emit xs).writeReplies = s.writeReplies := rfl
@[simp] theorem State.emit_delayReplies (xs : List Event) : (s.emit xs).delayReplies = s.delayReplies := rfl
@[simp] theorem State.emit_result (xs : List Event) : (s.emit xs).result = s.result := rfl

@[simp] theorem State.emit_nil : s.emit [] = s := by
  simp [State.emit]

@[simp] theorem State.emit_emit (xs ys : List Event) : (s.emit xs).emit ys = s.emit (xs ++ ys) := by
  simp [State.emit]

/-! ## Waiting, answering, rejecting -/

@[simp] theorem State.holdBack_cfg (i : Instr) : (s.holdBack i).cfg = s.cfg := rfl
@[simp] theorem State.holdBack_bl (i : Instr) : (s.holdBack i).bl = s.bl := rfl
@[simp] theorem State.holdBack_ist (i : Instr) : (s.holdBack i).ist = s.ist := rfl
@[simp] theorem State.holdBack_seq (i : Instr) : (s.holdBack i).seq = s.seq := rfl
@[simp] theorem State.holdBack_trace (i : Instr) : (s.holdBack i).trace = s.trace := rfl
@[simp] theorem State.holdBack_requests (i : Instr) : (s.holdBack i).requests = i :: s.requests := rfl
@[simp] theorem State.holdBack_result (i : Instr) : (s.holdBack i).result = s.result := rfl

@[simp] theorem State.answer_cfg (r : PrimResult) : (s.answer r).cfg = s.cfg := rfl
@[simp] theorem State.answer_bl (r : PrimResult) : (s.answer r).bl = s.bl := rfl
@[simp] theorem State.answer_ist (r : PrimResult) : (s.answer r).ist = s.ist := rfl
@[simp] theorem State.answer_seq (r : PrimResult) : (s.answer r).seq = s.seq := rfl
@[simp] theorem State.answer_trace (r : PrimResult) : (s.answer r).trace = s.trace := rfl
@[simp] theorem State.answer_requests (r : PrimResult) : (s.answer r).requests = s.requests := rfl
@[simp] theorem State.answer_result (r : PrimResult) : (s.answer r).result = r := rfl

@[simp] theorem State.reject_eq : s.reject = s := rfl

/-! ## Performing an event -/

@[simp] theorem State.complete_cfg (e : Event) (rest : List Event) : (s.complete e rest).cfg = s.cfg := rfl
@[simp] theorem State.complete_bl (e : Event) (rest : List Event) : (s.complete e rest).bl = s.bl := rfl
@[simp] theorem State.complete_seq (e : Event) (rest : List Event) : (s.complete e rest).seq = rest := rfl
@[simp] theorem State.complete_trace (e : Event) (rest : List Event) :
    (s.complete e rest).trace = s.trace ++ [e] := rfl
@[simp] theorem State.complete_requests (e : Event) (rest : List Event) :
    (s.complete e rest).requests = s.requests := rfl
@[simp] theorem State.complete_result (e : Event) (rest : List Event) :
    (s.complete e rest).result = s.result := rfl

/-! ## Placing an instruction -/

@[simp] theorem State.place_seq (i : Instr) : (s.place i).seq = [] := rfl
@[simp] theorem State.place_ist (i : Instr) : (s.place i).ist = s.bootedFor i := rfl
@[simp] theorem State.place_requests (i : Instr) : (s.place i).requests = i :: s.requests := rfl

end Sys2Proof.Machine
end

