-- ==== Sys2Proof/Laws/Ops.lean ====
section
/-! SUPPORT. What each shared operation can do, once: the transfer operations as events emitted, the admission, and
performing an event. -/

namespace Sys2Proof.Machine

variable (s : State)

theorem State.strobe_eq (f : Byte) : s.strobe f = s.emit (strobeEvents s.cfg f) := rfl

/-- SENDBYTE emits the two strobes, the high frame's first. -/
theorem State.sendByte_eq (v : Byte) (m : Mode) :
    s.sendByte v m = s.emit (strobeEvents s.cfg (highFrame v m s.bl) ++ strobeEvents s.cfg (lowFrame v m s.bl)) := by
  simp [State.sendByte, State.strobe_eq]

/-- A loop of byte transfers emits each transfer's events, in order. -/
theorem State.sendBytes_eq (vs : List Byte) (m : Mode) :
    s.sendBytes vs m = s.emit (vs.flatMap fun v =>
      strobeEvents s.cfg (highFrame v m s.bl) ++ strobeEvents s.cfg (lowFrame v m s.bl)) := by
  unfold State.sendBytes
  induction vs generalizing s with
  | nil => simp
  | cons v vs ih =>
    rw [List.foldl_cons, ih, State.sendByte_eq]
    simp

theorem State.idle_iff : s.idle = true ↔ s.seq = [] ∧ s.ist ≠ .initializing := by
  simp [State.idle]

theorem State.admits_iff :
    s.admits = true ↔ s.ist ≠ .uninitialized ∨ s.cfg.uninitPolicy = .emit := by
  simp [State.admits]

/-- What presenting a gated operation can answer. -/
theorem State.present_next {i : Instr} {f : State → State} {t : State} (h : s.present i f = .next t) :
    (s.idle = true ∧ s.admits = true ∧ t = f s) ∨ (s.idle = false ∧ t = s.holdBack i) := by
  unfold State.present at h
  split at h
  · split at h
    · exact .inl ⟨‹_›, ‹_›, by simpa using h.symm⟩
    · cases h
  · rename_i hi
    exact .inr ⟨by simpa using hi, by simpa using h.symm⟩

theorem State.present_refused {i : Instr} {f : State → State} {r : Refusal} (h : s.present i f = .refused r) :
    s.idle = true ∧ s.admits = false ∧ r = .beforeInit := by
  unfold State.present at h
  split at h
  · split at h
    · cases h
    · rename_i hi ha
      exact ⟨hi, by simpa using ha, by simpa using h.symm⟩
  · cases h

theorem State.present_accepted {i : Instr} {f : State → State} (h : s.idle = true) (ha : s.admits = true) :
    s.present i f = .next (f s) := by
  simp [State.present, h, ha]

/-- What presenting `init` can answer: never a refusal. -/
theorem State.presentInit_next {f : State → State} {t : State} (h : s.presentInit f = .next t) :
    (s.idle = true ∧ t = f s) ∨ (s.idle = false ∧ t = s.holdBack .init) := by
  unfold State.presentInit at h
  split at h
  · exact .inl ⟨‹_›, by simpa using h.symm⟩
  · rename_i hi
    exact .inr ⟨by simpa using hi, by simpa using h.symm⟩

theorem State.presentInit_accepted {f : State → State} (h : s.idle = true) : s.presentInit f = .next (f s) := by
  simp [State.presentInit, h]

/-- Performing an event either hangs and changes nothing, or completes it and uses up an answer. -/
theorem State.perform_cases (e : Event) (rest : List Event) :
    s.perform e rest = s ∨
      ∃ ws ds, s.perform e rest = { s.complete e rest with writeReplies := ws, delayReplies := ds } := by
  cases e with
  | W a v =>
    simp only [State.perform]
    split
    · exact .inl rfl
    · exact .inr ⟨_, s.delayReplies, rfl⟩
  | D t =>
    simp only [State.perform]
    split
    · exact .inl rfl
    · exact .inr ⟨s.writeReplies, _, rfl⟩

/-- A write the transport never answers changes nothing. -/
theorem State.perform_hung {a : BusAddress} {v : Byte} {replies : List WriteReply} (rest : List Event)
    (h : s.writeReplies = .never :: replies) : s.perform (.W a v) rest = s := by
  simp [State.perform, h]

theorem State.perform_hungDelay {d : Nat} {replies : List DelayReply} (rest : List Event)
    (h : s.delayReplies = .never :: replies) : s.perform (.D d) rest = s := by
  simp [State.perform, h]

end Sys2Proof.Machine
end

