-- ==== Sys2Proof/Laws/PerInstr.lean ====
section
/-! SUPPORT. A statement about every instruction as syntax, constructor by constructor: the word the encoder writes
has the fixed bits of the instruction's row in spec/opcode_table.json. -/

namespace Sys2Proof.Laws.FixedBits

/-- An instruction whose operands its word carries is encoded with its row's fixed bits. -/
def Statement (i : Instr) : Prop :=
  i.carried = true → ∀ (policy : AddrPolicy) (backlight : Bool), i.row.matches (encode policy backlight i) = true

/-- OR-ing a constant sets its bits: the shape of `setCursor` and `createChar`. -/
theorem or_masked (a b : Byte) : (a ||| b) &&& a = a := by
  ext i hi
  simp
  intro h
  simp [h]

theorem init : Statement .init := by
  intro _ _ _; rfl

theorem clear : Statement .clear := by
  intro _ _ _; rfl

theorem setCursor (row col : Int) : Statement (.setCursor row col) := by
  intro h policy _
  simp only [Instr.carried, decide_eq_true_eq] at h
  obtain ⟨rfl, -, -⟩ := h
  cases policy <;>
    simpa [Row.matches, Instr.row, Row.patterns, encode, Machine.ddramAddress, fitAll, BytePattern.fits,
      Machine.cursorCommand, Machine.CMD_SETDDRAMADDR] using or_masked 0x80#8 (Machine.low8 col)

theorem writeChar (c : Byte) : Statement (.writeChar c) := by
  intro _ _ _; simp [Row.matches, Instr.row, Row.patterns, encode, fitAll, BytePattern.fits]

theorem print (text : List Byte) : Statement (.print text) := by
  intro h _ _
  simp only [Instr.carried, Bool.and_eq_true, decide_eq_true_eq, List.all_eq_true] at h
  have hw : text.takeWhile (fun c => c != 0x00#8) = text := List.takeWhile_eq_self_iff.mpr h.2
  have ht : Machine.printable text = text := by
    rw [Machine.printable, hw, List.take_of_length_le h.1]
  simp only [Row.matches, Instr.row, encode, ht, Bool.and_eq_true, decide_eq_true_eq, List.all_eq_true]
  exact h

theorem setCursorVisibility (visible blink : Bool) : Statement (.setCursorVisibility visible blink) := by
  intro _ _ _; cases visible <;> cases blink <;> rfl

theorem createChar (location : Int) (p : Glyph) : Statement (.createChar location p) := by
  intro h _ _
  simp only [Instr.carried, decide_eq_true_eq] at h
  obtain ⟨h0, h8⟩ := h
  interval_cases location <;>
    simp [Row.matches, Instr.row, Row.patterns, encode, Machine.cgramAddress, Machine.GLYPH_SLOTS,
      Machine.GLYPH_ROWS, Machine.glyphCommand, Machine.CMD_SETCGRAMADDR, Machine.low8, Glyph.rows, fitAll,
      BytePattern.fits, List.replicate]

theorem setBacklight (on : Bool) : Statement (.setBacklight on) := by
  intro _ _ _; cases on <;> rfl

theorem encode (value : Byte) (mode : Mode) (backlight : Bool) : Statement (.encode value mode backlight) := by
  intro _ _ _
  cases mode <;> cases backlight <;>
    simp [Row.matches, Instr.row, Row.patterns, Sys2Proof.encode, fitAll, BytePattern.fits, Machine.highFrame,
      Machine.lowFrame, Machine.modeBits, Machine.flagIf, Machine.MODE_COMMAND, Machine.MODE_CHARACTER,
      Machine.BL_BIT] <;> revert value <;> decide

theorem strobe (f : Byte) : Statement (.strobe f) := by
  intro h _ _
  simp only [Instr.carried, beq_iff_eq] at h
  simp only [Row.matches, Instr.row, Row.patterns, Sys2Proof.encode, fitAll, BytePattern.fits, Machine.EN_BIT]
  revert f
  decide

theorem sendByte (value : Byte) (mode : Mode) : Statement (.sendByte value mode) := by
  intro _ _ backlight
  cases mode <;> cases backlight <;>
    simp [Row.matches, Instr.row, Row.patterns, Sys2Proof.encode, fitAll, BytePattern.fits, Machine.highFrame,
      Machine.lowFrame, Machine.modeBits, Machine.flagIf, Machine.MODE_COMMAND, Machine.MODE_CHARACTER,
      Machine.BL_BIT, Machine.EN_BIT] <;> revert value <;> decide

theorem ddramAddr (policy : AddrPolicy) (row col : Int) : Statement (.ddramAddr policy row col) := by
  intro h _ _
  simp only [Instr.carried, Bool.and_eq_true, beq_iff_eq, decide_eq_true_eq] at h
  obtain ⟨rfl, rfl, h0, h128⟩ := h
  obtain ⟨n, rfl⟩ := Int.eq_ofNat_of_zero_le h0
  have hn : n < 128 := by omega
  simp only [Row.matches, Instr.row, Row.patterns, Sys2Proof.encode, Machine.ddramAddress, fitAll,
    BytePattern.fits, Machine.low8, if_true, Int.zero_add]
  interval_cases n <;> decide

theorem cgramAddr (location : Int) : Statement (.cgramAddr location) := by
  intro h _ _
  simp only [Instr.carried, decide_eq_true_eq] at h
  obtain ⟨h0, h8⟩ := h
  interval_cases location <;> rfl

theorem clearDisplay : Statement .clearDisplay := by
  intro _ _ _; rfl

theorem returnHome : Statement .returnHome := by
  intro _ _ _; rfl

theorem entryModeSet (left shift : Bool) : Statement (.entryModeSet left shift) := by
  intro _ _ _; cases left <;> cases shift <;> rfl

theorem displayControl (display cursor blink : Bool) : Statement (.displayControl display cursor blink) := by
  intro _ _ _; cases display <;> cases cursor <;> cases blink <;> rfl

theorem functionSet (eightBit twoLine tallFont : Bool) : Statement (.functionSet eightBit twoLine tallFont) := by
  intro _ _ _; cases eightBit <;> cases twoLine <;> cases tallFont <;> rfl

theorem setCgramAddr (addr : BitVec 6) : Statement (.setCgramAddr addr) := by
  intro _ _ _
  simp only [Row.matches, Instr.row, Row.patterns, Sys2Proof.encode, fitAll, BytePattern.fits, Machine.setCgramByte,
    Machine.CMD_SETCGRAMADDR]
  revert addr
  decide

theorem setDdramAddr (addr : BitVec 7) : Statement (.setDdramAddr addr) := by
  intro _ _ _
  simp only [Row.matches, Instr.row, Row.patterns, Sys2Proof.encode, fitAll, BytePattern.fits, Machine.setDdramByte,
    Machine.CMD_SETDDRAMADDR]
  revert addr
  decide

theorem litResync : Statement .litResync := by
  intro _ _ _; rfl

theorem lit4Bit : Statement .lit4Bit := by
  intro _ _ _; rfl

theorem litBacklight (on : Bool) : Statement (.litBacklight on) := by
  intro _ _ _; cases on <;> rfl

theorem charData (c : Byte) : Statement (.charData c) := by
  intro _ _ _; simp [Row.matches, Instr.row, Row.patterns, Sys2Proof.encode, fitAll, BytePattern.fits]

theorem frame (v : Byte) : Statement (.frame v) := by
  intro h _ _
  simp only [Instr.carried] at h
  simpa [Row.matches, Instr.row, Row.patterns, Sys2Proof.encode, fitAll, BytePattern.fits] using h

end Sys2Proof.Laws.FixedBits
end

