-- ==== Sys2Proof/Laws/Step.lean ====
section
/-! SUPPORT. What a step can do: an inversion lemma, from which the invariants follow case by case. -/

namespace Sys2Proof.Machine

/-- The cases of a step that answers a next state: an event performed, nothing to do, or a request presented. -/
theorem step_next {s t : State} (h : step s = .next t) :
    (∃ e rest, s.seq = e :: rest ∧ t = s.perform e rest) ∨
    (s.seq = [] ∧ s.requests = [] ∧ t = s) ∨
    (s.seq = [] ∧ ∃ i rest, s.requests = i :: rest ∧ i.wellFormed = true ∧
      exec i { s with requests := rest } = .next t) := by
  unfold step at h
  split at h
  · rename_i e rest hs
    exact .inl ⟨e, rest, hs, by simpa using h.symm⟩
  · rename_i hs
    cases hr : s.requests with
    | nil => exact .inr (.inl ⟨hs, rfl, by simpa [State.takeRequest, hr] using h.symm⟩)
    | cons i rest =>
      simp only [State.takeRequest, hr] at h
      split at h
      · exact .inr (.inr ⟨hs, i, rest, rfl, ‹_›, h⟩)
      · cases h

/-- The cases of a step that is refused. -/
theorem step_refused {s : State} {r : Refusal} (h : step s = .refused r) :
    s.seq = [] ∧ ∃ i rest, s.requests = i :: rest ∧
      ((i.wellFormed = false ∧ r = .illFormed) ∨
       (i.wellFormed = true ∧ exec i { s with requests := rest } = .refused r)) := by
  unfold step at h
  split at h
  · cases h
  · rename_i hs
    cases hr : s.requests with
    | nil => simp [State.takeRequest, hr] at h
    | cons i rest =>
      simp only [State.takeRequest, hr] at h
      split at h
      · exact ⟨hs, i, rest, rfl, .inr ⟨‹_›, h⟩⟩
      · rename_i hw
        exact ⟨hs, i, rest, rfl, .inl ⟨by simpa using hw, by simpa using h.symm⟩⟩

theorem step_of_event {s : State} {e : Event} {rest : List Event} (h : s.seq = e :: rest) :
    step s = .next (s.perform e rest) := by
  simp [step, h]

end Sys2Proof.Machine
end

