-- ==== Sys2Proof/Laws/Run.lean ====
section
/-! SUPPORT. Runs of several steps, one step at a time. -/

namespace Sys2Proof.Machine

@[simp] theorem runSteps_zero (s : State) : runSteps 0 s = .next s := rfl

/-- A run goes on from the next state of its first step. -/
theorem runSteps_of_next {s t : State} (h : step s = .next t) (n : Nat) : runSteps (n + 1) s = runSteps n t := by
  simp [runSteps, h]

/-- A run ends at a refused step. -/
theorem runSteps_of_refused {s : State} {r : Refusal} (h : step s = .refused r) (n : Nat) :
    runSteps (n + 1) s = .refused r := by
  simp [runSteps, h]

theorem hostRun_next (M : Host.Core) (n : Nat) (s t : M.State) (h : M.step s = .next t) :
    M.run (n + 1) s = M.run n t := by
  simp [Host.Core.run, h]

theorem hostRun_refused (M : Host.Core) (n : Nat) (s : M.State) (r : M.Refusal) (h : M.step s = .refused r) :
    M.run (n + 1) s = .refused r := by
  simp [Host.Core.run, h]

/-- `runSteps` is the host's run of the machine behind its interface. -/
theorem runSteps_eq_run (n : Nat) (s : State) : runSteps n s = Host.Core.run core n s := by
  induction n generalizing s with
  | zero => exact (Host.Core.run.eq_1 core s).symm
  | succ n ih =>
    cases h : step s with
    | next t =>
      rw [runSteps_of_next h]
      exact (ih t).trans (hostRun_next core n s t h).symm
    | fault r => cases r
    | refused r =>
      rw [runSteps_of_refused h]
      exact (hostRun_refused core n s r h).symm

end Sys2Proof.Machine
end

