-- ==== Sys2Proof/Machine/Listing.lean ====
section
/-! DEFINITION. The call syntax of the host operations (spec/30_encoding.md R63): one call a line, integers in
decimal, booleans as true and false, a pattern in brackets, a text in double quotes. The other rows have no call
syntax in the spec. -/

namespace Sys2Proof.Machine

/-- A boolean as R63 writes it. -/
def boolText (b : Bool) : String := if b then "true" else "false"

/-- The pattern `[b0, b1, ..., b7]` (R63). -/
def patternText (g : Glyph) : String :=
  "[" ++ String.intercalate ", " (g.rows.map fun r => toString r.toNat) ++ "]"

/-- The text in double quotes, its characters being ASCII codes (R63). R63 is silent on a text that holds a double
quote, a control code or a byte above 0x7F: each byte is written as the character of that code, without any escape.
DESIGN CHOICE, log 34. -/
def quotedText (text : List Byte) : String :=
  "\"" ++ String.ofList (text.map fun c => Char.ofNat c.toNat) ++ "\""

/-- A host operation as a call (R63), or `none` for a row that is not one. -/
def callText : Instr → Option String
  | .init => some "init()"
  | .clear => some "clear()"
  | .setCursor row col => some ("setCursor(" ++ toString row ++ ", " ++ toString col ++ ")")
  | .writeChar c => some ("writeChar(" ++ toString c.toNat ++ ")")
  | .print text => some ("print(" ++ quotedText text ++ ")")
  | .setCursorVisibility visible blink =>
    some ("setCursorVisibility(" ++ boolText visible ++ ", " ++ boolText blink ++ ")")
  | .createChar location pattern =>
    some ("createChar(" ++ toString location ++ ", " ++ patternText pattern ++ ")")
  | .setBacklight on => some ("setBacklight(" ++ boolText on ++ ")")
  | .encode _ _ _ => none
  | .strobe _ => none
  | .sendByte _ _ => none
  | .ddramAddr _ _ _ => none
  | .cgramAddr _ => none
  | .clearDisplay => none
  | .returnHome => none
  | .entryModeSet _ _ => none
  | .displayControl _ _ _ => none
  | .functionSet _ _ _ => none
  | .setCgramAddr _ => none
  | .setDdramAddr _ => none
  | .litResync => none
  | .lit4Bit => none
  | .litBacklight _ => none
  | .charData _ => none
  | .frame _ => none

end Sys2Proof.Machine
end

