-- ==== Sys2Proof/Tests/Slice0.lean ====
section
/-! SUPPORT. The model's own tests: the well-formedness smoke, the decoding of words written out from the spec's
encodings, the spec's test vectors (spec/95_test_vectors.md, cited by section), and a witness for the hypotheses of
each obligation. -/

namespace Sys2Proof.Tests

open Sys2Proof Sys2Proof.Machine

/-! ## States and readings the tests use -/

/-- A core after `init`, at rest, with a policy and a backlight flag. -/
def ready (policy : AddrPolicy) (bl : Bool) : State :=
  { State.reset with cfg := { constructorArguments with addrPolicy := policy }, bl := bl, ist := .ready }

/-- A core before `init` that may emit (`UNINIT_POLICY = emit`). -/
def emitting : State := State.construct { constructorArguments with uninitPolicy := .emit }

/-- A core inside an operation whose remaining events are given. -/
def busy (ist : InitState) (events : List Event) : State := { State.reset with ist := ist, seq := events }

/-- The bytes an instruction writes to the bus. -/
def writes (i : Instr) (s : State) : List Byte := writtenBytes (eventsOf (exec i s))

/-- What a primitive returns, `nothing` if it does not complete. -/
def returned (i : Instr) (s : State) : PrimResult :=
  match exec i s with
  | .next t => t.result
  | .fault _ => .nothing
  | .refused _ => .nothing

/-- A glyph pattern of 95 section 3.5; its last row has bits 7 to 5 set. -/
def box : Glyph := ⟨0x1F#8, 0x11#8, 0x11#8, 0x11#8, 0x11#8, 0x11#8, 0x1F#8, 0xE0#8⟩

/-! ## Well-formedness -/

/-- Bit 1 of a FRAME is always 0 (spec/30_encoding.md R47). -/
theorem test_frame_reserved_bit_ill_formed : (Instr.frame 0x02#8).wellFormed = false := by decide

theorem test_frame_without_reserved_bit_well_formed : (Instr.frame 0xFD#8).wellFormed = true := by decide

/-- `STROBE_DELAY_US` is at least 1 (spec/00_scope.md R4). -/
theorem test_zero_delay_ill_formed : Config.wf { constructorArguments with strobeDelayUs := 0 } = false := by decide

theorem test_reset_configuration_well_formed : constructorArguments.wf = true := by decide

/-- A request that is not well formed is refused by name. -/
theorem test_step_refuses_ill_formed :
    step { State.reset with requests := [.frame 0x02#8] } = .refused .illFormed := rfl

/-! ## Decoding: a word for each row, written out from its encoding -/

theorem test_read_init : Row.init.read [0b00000011#8, 0b00000011#8, 0b00000011#8, 0b00000010#8, 0b00101100#8,
    0b00001100#8, 0b00000110#8, 0b00000001#8] = some .init := by decide
theorem test_read_clear : Row.clear.read [0b00000001#8] = some .clear := by decide
/-- 95 section 3.4: FourLine row 2 column 3 is 0x97, the word of address 0x17. -/
theorem test_read_setCursor : Row.setCursor.read [0b10010111#8] = some (.setCursor 0 23) := by decide
theorem test_read_writeChar : Row.writeChar.read [0b01000001#8] = some (.writeChar 65#8) := by decide
theorem test_read_print : Row.print.read [0b01001000#8, 0b01101001#8] = some (.print [72#8, 105#8]) := by decide
theorem test_read_setCursorVisibility :
    Row.setCursorVisibility.read [0b00001101#8] = some (.setCursorVisibility false true) := by decide
theorem test_read_createChar : Row.createChar.read [0b01011000#8, 0x1F#8, 0x11#8, 0x11#8, 0x11#8, 0x11#8, 0x11#8,
    0x1F#8, 0xE0#8] = some (.createChar 3 box) := by decide
theorem test_read_setBacklight : Row.setBacklight.read [0b00001000#8] = some (.setBacklight true) := by decide
/-- 95 section 2: value A5, command, backlight on. -/
theorem test_read_encode : Row.encode.read [0b10101000#8, 0b01011000#8] = some (.encode 0xA5#8 .command true) := by
  decide
/-- 95 section 3.1: `49 4D 49`. -/
theorem test_read_strobe : Row.strobe.read [0b01001001#8, 0b01001101#8, 0b01001001#8] = some (.strobe 0x49#8) := by
  decide
/-- 95 section 3.2: value 5A, character, backlight off. -/
theorem test_read_sendByte : Row.sendByte.read [0b01010001#8, 0b01010101#8, 0b01010001#8, 0b10100001#8, 0b10100101#8,
    0b10100001#8] = some (.sendByte 0x5A#8 .character) := by decide
theorem test_read_ddramAddr : Row.ddramAddr.read [0b01000101#8] = some (.ddramAddr .twoLine 0 69) := by decide
theorem test_read_cgramAddr : Row.cgramAddr.read [0b00111000#8] = some (.cgramAddr 7) := by decide
theorem test_read_clearDisplay : Row.clearDisplay.read [0b00000001#8] = some .clearDisplay := by decide
theorem test_read_returnHome : Row.returnHome.read [0b00000010#8] = some .returnHome := by decide
theorem test_read_entryModeSet : Row.entryModeSet.read [0b00000110#8] = some (.entryModeSet true false) := by decide
theorem test_read_displayControl :
    Row.displayControl.read [0b00001100#8] = some (.displayControl true false false) := by decide
theorem test_read_functionSet : Row.functionSet.read [0b00101100#8] = some (.functionSet false true true) := by decide
theorem test_read_setCgramAddr : Row.setCgramAddr.read [0b01011000#8] = some (.setCgramAddr 24#6) := by decide
theorem test_read_setDdramAddr : Row.setDdramAddr.read [0b10010111#8] = some (.setDdramAddr 23#7) := by decide
theorem test_read_litResync : Row.litResync.read [0b00000011#8] = some .litResync := by decide
theorem test_read_lit4Bit : Row.lit4Bit.read [0b00000010#8] = some .lit4Bit := by decide
theorem test_read_litBacklight : Row.litBacklight.read [0b00001000#8] = some (.litBacklight true) := by decide
theorem test_read_charData : Row.charData.read [0b11111111#8] = some (.charData 255#8) := by decide
theorem test_read_frame : Row.frame.read [0b01001101#8] = some (.frame 0x4D#8) := by decide

/-- A word without its row's fixed bits is not read as that row. -/
theorem test_read_rejects_other_rows : Row.createChar.read [0x59#8, 0#8, 0#8, 0#8, 0#8, 0#8, 0#8, 0#8, 0#8] = none ∧
    Row.frame.read [0x02#8] = none ∧ Row.sendByte.read [0x08#8, 0x0C#8, 0x08#8, 0x09#8, 0x0D#8, 0x09#8] = none := by
  decide

/-- The decoder's reading of a word, as an `Option`. -/
def decoded (bs : List Byte) : Option Instr := (decode bs).toOption

/-- spec/30_encoding.md R68: the highest set bit classifies a command byte. -/
theorem test_decode_command_bytes :
    [0x80#8, 0x40#8, 0x20#8, 0x08#8, 0x04#8, 0x03#8, 0x02#8, 0x01#8, 0x00#8].map (fun v => decoded [v]) =
      [some (.setDdramAddr 0#7), some (.setCgramAddr 0#6), some (.functionSet false false false),
       some (.displayControl false false false), some (.entryModeSet false false), some .litResync,
       some .returnHome, some .clearDisplay, some (.litBacklight false)] := by decide

/-- R68's own labels: 0x03 is RETURNHOME and 0x00 no command, whatever literal they were sent as. -/
theorem test_classify_command_bytes :
    [0x97#8, 0x58#8, 0x2C#8, 0x1F#8, 0x0C#8, 0x06#8, 0x03#8, 0x02#8, 0x01#8, 0x00#8].map classifyCommand =
      [.setDdramAddr 0x17#7, .setCgramAddr 0x18#6, .functionSet, .shift, .displayControl, .entryModeSet, .returnHome,
       .returnHome, .clearDisplay, .noCommand] := by decide

/-- The shift command and words of no row are refused by name (spec/30_encoding.md R68). -/
theorem test_decode_rejects_by_name : decode [] = .error .empty ∧ decode [0x10#8] = .error .shiftCommand ∧
    decode [0x1F#8] = .error .shiftCommand ∧ decode [0x00#8, 0x01#8] = .error .notAFramePair ∧
    decode [0x00#8, 0x00#8, 0x00#8] = .error .notAStrobe ∧ decode [1#8, 1#8, 1#8, 1#8] = .error .noSuchLength :=
  ⟨rfl, rfl, rfl, rfl, rfl, rfl⟩

/-- The table numbers the first byte as bits 7 to 0, so `08 0C 08 18 1C 18` is the number 0x181C18080C08. -/
theorem test_decode_table_word : decodeTableWord 48 0x181C18080C08 = some (.sendByte 0x01#8 .command) := by decide

/-! ## ENCODE, STROBE, SENDBYTE: 95 sections 2, 3.1, 3.2 -/

theorem test_encode_vectors :
    [(0xFF#8, Mode.character, true), (0xA5#8, .command, true), (0x5A#8, .character, false),
      (0x0F#8, .command, false), (0x97#8, .command, true), (0x41#8, .character, true)].map
        (fun x => returned (.encode x.1 x.2.1 x.2.2) (ready .twoLine false)) =
      [.frames 0xF9#8 0xF9#8, .frames 0xA8#8 0x58#8, .frames 0x51#8 0xA1#8, .frames 0x00#8 0xF0#8,
       .frames 0x98#8 0x78#8, .frames 0x49#8 0x19#8] := by decide

theorem test_strobe_vectors :
    [0x00#8, 0x09#8, 0xF9#8, 0x38#8].map (fun f => writes (.strobe f) (ready .twoLine true)) =
      [[0x00#8, 0x04#8, 0x00#8], [0x09#8, 0x0D#8, 0x09#8], [0xF9#8, 0xFD#8, 0xF9#8], [0x38#8, 0x3C#8, 0x38#8]] := by
  decide

/-- A frame with its enable bit set: the third write drops it (spec/41_enable_strobe.md R87). -/
theorem test_strobe_of_a_raised_frame :
    writes (.strobe 0xFF#8) (ready .twoLine true) = [0xFF#8, 0xFF#8, 0xFB#8] := by decide

theorem test_sendByte_vectors :
    writes (.sendByte 0xA5#8 .command) (ready .twoLine true) = [0xA8#8, 0xAC#8, 0xA8#8, 0x58#8, 0x5C#8, 0x58#8] ∧
    writes (.sendByte 0x5A#8 .character) (ready .twoLine false) = [0x51#8, 0x55#8, 0x51#8, 0xA1#8, 0xA5#8, 0xA1#8] := by
  decide

/-- A delay of `CFG.STROBE_DELAY_US` after every write, and the core's own address. -/
theorem test_frame_and_strobe_events :
    eventsOf (exec (.frame 0x4D#8) State.reset) = [.W 0x27#7 0x4D#8] ∧
    eventsOf (exec (.strobe 0x08#8) State.reset) =
      [.W 0x27#7 0x08#8, .D 600, .W 0x27#7 0x0C#8, .D 600, .W 0x27#7 0x08#8, .D 600] := by decide

/-! ## Addresses: 95 sections 3.4, 3.5 -/

theorem test_ddramAddr_vectors :
    [(AddrPolicy.twoLine, (0 : Int), (15 : Int)), (.twoLine, 7, 3), (.twoLine, -1, 0), (.twoLine, 0, -1), (.fourLine, 2, 3),
      (.fourLine, 3, 44), (.fourLine, 4, 0), (.fourLine, -1, 0)].map
        (fun x => returned (.ddramAddr x.1 x.2.1 x.2.2) State.reset) =
      [.address 0x0F, .address 0x43, .address 0x40, .address (-1), .address 0x17, .address 0x80, .reject, .reject] := by
  decide

theorem test_cgramAddr_vectors :
    [(-1 : Int), 0, 1, 3, 7, 8, 100].map (fun l => returned (.cgramAddr l) State.reset) =
      [.reject, .address 0x00, .address 0x08, .address 0x18, .address 0x38, .reject, .reject] := by decide

/-- The command bytes, recovered from the trace as a receiver does. -/
theorem test_setCursor_vectors :
    [((AddrPolicy.twoLine), (1 : Int), (64 : Int)), (.twoLine, 0, 256), (.twoLine, 0, -1), (.twoLine, 4, 0),
      (.fourLine, 2, 3), (.fourLine, 3, 19), (.fourLine, 5, 0)].map
        (fun x => (recover (latched (eventsOf (exec (.setCursor x.2.1 x.2.2) (ready x.1 true))))).map
          (fun y => y.1.value)) =
      [[0x80#8], [0x80#8], [0xFF#8], [0xC0#8], [0x97#8], [0xE7#8], []] := by decide

theorem test_setCursor_writes : writes (.setCursor 2 3) (ready .fourLine true) =
      [0x98#8, 0x9C#8, 0x98#8, 0x78#8, 0x7C#8, 0x78#8] ∧
    writes (.setCursor 1 0) (ready .twoLine false) = [0xC0#8, 0xC4#8, 0xC0#8, 0x00#8, 0x04#8, 0x00#8] := by decide

theorem test_createChar_writes :
    (writes (.createChar 3 box) (ready .twoLine true)).take 12 =
      [0x58#8, 0x5C#8, 0x58#8, 0x88#8, 0x8C#8, 0x88#8, 0x19#8, 0x1D#8, 0x19#8, 0xF9#8, 0xFD#8, 0xF9#8] ∧
    (writes (.createChar 3 box) (ready .twoLine true)).drop 48 =
      [0xE9#8, 0xED#8, 0xE9#8, 0x09#8, 0x0D#8, 0x09#8] := by decide

theorem test_createChar_rejects : exec (.createChar 8 box) (ready .twoLine true) = .next (ready .twoLine true) ∧
    exec (.createChar (-1) box) (ready .twoLine true) = .next (ready .twoLine true) := ⟨rfl, rfl⟩

/-! ## Text: 95 section 3.6 -/

theorem test_writeChar_vectors :
    writes (.writeChar 0x41#8) (ready .twoLine true) = [0x49#8, 0x4D#8, 0x49#8, 0x19#8, 0x1D#8, 0x19#8] ∧
    writes (.writeChar 0x00#8) (ready .twoLine true) = [0x09#8, 0x0D#8, 0x09#8, 0x09#8, 0x0D#8, 0x09#8] := by decide

/-- The text ends at a zero byte; an empty text sends nothing. -/
theorem test_print_terminator :
    writes (.print [0x41#8, 0x00#8, 0x42#8]) (ready .twoLine true) =
      [0x49#8, 0x4D#8, 0x49#8, 0x19#8, 0x1D#8, 0x19#8] ∧
    writes (.print []) (ready .twoLine true) = [] := by decide

/-- Of 32 characters 31 are sent: 186 writes. -/
theorem test_print_cap :
    (writes (.print (List.replicate 32 0x41#8)) (ready .twoLine true)).length = 186 := by decide +kernel

/-! ## The other host operations: 95 sections 3.3, 3.7 to 3.10 -/

theorem test_init_bytes :
    latched (eventsOf (exec .init State.reset)) = [0x0C#8, 0x3C#8, 0x0C#8, 0x3C#8, 0x0C#8, 0x3C#8, 0x0C#8, 0x2C#8,
      0x2C#8, 0xCC#8, 0x0C#8, 0xCC#8, 0x0C#8, 0x6C#8, 0x0C#8, 0x1C#8] := by decide

theorem test_init_again : (eventsOf (exec .init (ready .twoLine true))).length = 96 := by decide

theorem test_clear_writes : writes .clear (ready .twoLine true) =
    [0x08#8, 0x0C#8, 0x08#8, 0x18#8, 0x1C#8, 0x18#8] := by decide

theorem test_clear_before_init : exec .clear State.reset = .refused .beforeInit ∧
    writes .clear emitting = [0x08#8, 0x0C#8, 0x08#8, 0x18#8, 0x1C#8, 0x18#8] := ⟨rfl, by decide⟩

theorem test_setBacklight_on : writes (.setBacklight true) (ready .twoLine false) =
    [0x08#8, 0x0C#8, 0x08#8, 0x88#8, 0x8C#8, 0x88#8] := by decide

theorem test_setBacklight_off : writes (.setBacklight false) (ready .twoLine true) =
    [0x00#8, 0x04#8, 0x00#8, 0x00#8, 0x04#8, 0x00#8] := by decide

theorem test_setCursorVisibility_writes :
    writes (.setCursorVisibility false true) (ready .twoLine true) =
      [0x08#8, 0x0C#8, 0x08#8, 0xD8#8, 0xDC#8, 0xD8#8] ∧
    writes (.setCursorVisibility true false) (ready .twoLine false) =
      [0x00#8, 0x04#8, 0x00#8, 0xE0#8, 0xE4#8, 0xE0#8] := by decide

/-! ## Controller bytes: spec/30_encoding.md R51 to R58, R67 -/

/-- The controller byte and mode an instruction sends, recovered from its trace. -/
def sent (i : Instr) : List ControllerByte :=
  (recover (latched (eventsOf (exec i (ready .twoLine true))))).map (fun y => y.1)

theorem test_commands_send :
    [Instr.clearDisplay, .returnHome, .entryModeSet false true, .displayControl false true false,
      .functionSet true false false, .setCgramAddr 63#6, .setDdramAddr 127#7, .litResync, .lit4Bit,
      .litBacklight true, .litBacklight false].map sent =
      [0x01#8, 0x02#8, 0x05#8, 0x0A#8, 0x30#8, 0x7F#8, 0xFF#8, 0x03#8, 0x02#8, 0x08#8, 0x00#8].map
        (fun v => [⟨v, .command⟩]) := by decide

theorem test_charData_sends : sent (.charData 0xFE#8) = [⟨0xFE#8, .character⟩] := by decide

/-- The literal of `setBacklight` alone leaves `BL` (spec/10_state.md R12). -/
theorem test_litBacklight_keeps_flag :
    exec (.litBacklight false) (ready .twoLine true) =
      .next { ready .twoLine true with seq := eventsOf (exec (.litBacklight false) (ready .twoLine true)) } := rfl

/-! ## Observers and call text -/

/-- The wiring of 0x9D on the backpack (spec/30_encoding.md R48). -/
theorem test_pins : pins 0x9D#8 = ⟨true, false, false, true, true, true, false, true⟩ := by decide

theorem test_backpack_holds_the_last_byte :
    backpackByte (eventsOf (exec (.strobe 0x38#8) State.reset)) = some 0x38#8 := by decide

/-- The call text of R63. -/
theorem test_call_text : callText (.setCursor 1 (-5)) = some "setCursor(1, -5)" ∧
    callText (.setBacklight false) = some "setBacklight(false)" := by decide

/-! ## The step -/

/-- 95 P1, shortened: reset, `init` accepted, its first write performed. -/
theorem test_first_event_of_init :
    ∃ t, runSteps 2 { State.reset with requests := [.init] } = .next t ∧
      t.trace = [.W 0x27#7 0x08#8] ∧ t.ist = .initializing ∧ t.seq.length = 95 := ⟨_, rfl, by decide⟩

/-- The last event of an `init` makes the core ready. -/
theorem test_last_event_of_init :
    ∃ t, step (busy .initializing [.D 600]) = .next t ∧ t.ist = .ready ∧ t.trace = [.D 600] := ⟨_, rfl, by decide⟩

/-- The host has nothing to present: the core stays as it is. -/
theorem test_idle : step State.reset = .next State.reset := rfl

/-- A table word placed after reset runs at once. -/
theorem test_placed_word_runs :
    ∃ t, step (State.reset.withFetchWord 8 0x97) = .next t ∧
      writtenBytes t.seq = [0x98#8, 0x9C#8, 0x98#8, 0x78#8, 0x7C#8, 0x78#8] := ⟨_, rfl, by decide⟩

/-! ## Witnesses: for each obligation with hypotheses, a concrete case that meets them all -/

theorem witness_RowWordsReadBack : ∀ i ∈ [Instr.init, .clear, .setCursor 0 0, .setCursor 0 127, .writeChar 0xFF#8,
    .print [0x48#8, 0x69#8], .setCursorVisibility true true, .createChar 0 box, .createChar 7 box, .setBacklight false,
    .encode 0xA5#8 .character true, .strobe 0xFB#8, .sendByte 0x5A#8 .command, .ddramAddr .twoLine 0 127, .cgramAddr 7,
    .clearDisplay, .returnHome, .entryModeSet true true, .displayControl true true true, .functionSet true true true,
    .setCgramAddr 63#6, .setDdramAddr 127#7, .litResync, .lit4Bit, .litBacklight true, .charData 0x00#8,
    .frame 0xFD#8], i.carried = true := by decide

theorem witness_RowWordsWriteBack :
    Row.read .createChar [0x78#8, 0#8, 1#8, 2#8, 3#8, 4#8, 5#8, 6#8, 0xFF#8] =
      some (.createChar 7 ⟨0#8, 1#8, 2#8, 3#8, 4#8, 5#8, 6#8, 0xFF#8⟩) ∧
    Row.read .functionSet [0x2F#8] = some (.functionSet false true true) := by decide

theorem witness_DecodeReadsBackOwnWords : (Instr.createChar 7 box).carried = true ∧
    (Instr.createChar 7 box).row ∈ [Row.init, .createChar, .encode, .strobe, .sendByte, .clearDisplay, .returnHome,
      .entryModeSet, .displayControl, .functionSet, .setCgramAddr, .setDdramAddr, .litResync] := by decide

/-- Each clause at the ends of its range. -/
theorem witness_CommandBytesAreClassified :
    (0x10#8 &&& 0xF0#8 = 0x10#8) ∧ (0x1F#8 &&& 0xF0#8 = 0x10#8) ∧
    (∀ v ∈ [0x00#8, 0x01#8, 0x02#8, 0x03#8, 0x04#8, 0x0F#8, 0x20#8, 0x3F#8], v &&& 0xF0#8 ≠ 0x10#8) ∧
    ((0xFF#8 &&& 0xF0#8 ≠ 0x10#8) ∧ classifyCommand 0xFF#8 = .setDdramAddr 127#7) ∧
    ((0x40#8 &&& 0xF0#8 ≠ 0x10#8) ∧ classifyCommand 0x40#8 = .setCgramAddr 0#6) := by decide

theorem witness_StepRunsTheNextRequest :
    let s := { State.reset with requests := [.init, .clear] }
    s.seq = [] ∧ s.requests = .init :: [.clear] ∧ Instr.init.wellFormed = true := by decide

theorem witness_PlacedWordIsRunNext : decodeTableWord 8 0x2C = some (.functionSet false true true) := by decide

/-- A write, a delay, and the last event of an `init`, with answers still to come. -/
theorem witness_StepPerformsTheHeadEvent :
    (let s := { busy .ready [.W 0x27#7 0x08#8, .D 600] with writeReplies := [.error, .ok], delayReplies := [.returned] }
     s.seq = .W 0x27#7 0x08#8 :: [.D 600] ∧ s.Total) ∧
    (let s := busy .initializing [.D 600]
     s.seq = .D 600 :: [] ∧ s.Total ∧ s.ist = .initializing) := by decide

theorem witness_HungWriteBlocksForEver :
    let s := { busy .ready [.W 0x27#7 0x08#8, .D 600] with writeReplies := [.never, .ok] }
    s.seq = .W 0x27#7 0x08#8 :: [.D 600] ∧ s.writeReplies = .never :: [.ok] := by decide

theorem witness_OperationDrainsToItsWholeTrace :
    let s := { busy .initializing [.W 0x27#7 0x08#8, .D 600] with writeReplies := [.error] }
    s.Total ∧ s.seq ≠ [] := by decide

/-- From reset and from `Ready`. -/
theorem witness_InitRunsToReady :
    (let s := { State.reset with requests := [.init, .clear] }
     s.AcceptsInit ∧ s.Total ∧ s.requests = .init :: [.clear]) ∧
    (let s := { ready .fourLine false with requests := [.init] }
     s.AcceptsInit ∧ s.Total ∧ s.requests = .init :: []) := by decide

theorem witness_TransportErrorsAreIgnored :
    SameHangs [.ok, .error, .never, .ok] [.error, .error, .never, .error] ∧
    (let s := { busy .ready [.W 0x27#7 0x08#8, .D 600] with writeReplies := [.error, .never] }
     s.seq = .W 0x27#7 0x08#8 :: [.D 600] ∧ s.writeReplies = .error :: [.never] ∧ WriteReply.error ≠ .never) :=
  ⟨.cons (by decide) (.cons (by decide) (.cons (by decide) (.cons (by decide) .nil))), by decide⟩

/-- Both reasons. -/
theorem witness_RefusalsAreOnlyThese :
    step { State.reset with requests := [.setBacklight true] } = .refused .beforeInit ∧
    step { State.reset with requests := [.frame 0xFF#8] } = .refused .illFormed := ⟨rfl, rfl⟩

theorem witness_ConfigurationNeverChanges :
    let s := { State.reset with requests := [.init] }
    ∃ t, step s = .next t ∧ t ≠ s := ⟨_, rfl, by decide⟩

/-- The invariant holds at rest and in the middle of a byte transfer. -/
theorem witness_inv_at_reset : State.reset.Inv ∧ State.reset.OwnEvents ∧ State.reset.InitInProgress :=
  ⟨⟨by decide, by decide, [], rfl⟩, by decide, by decide⟩

theorem witness_EveryStepKeepsByteTransfersWhole :
    let s := { State.reset with
      ist := .ready
      trace := (transferEvents constructorArguments true ⟨0x41#8, .character⟩).take 5
      seq := (transferEvents constructorArguments true ⟨0x41#8, .character⟩).drop 5
      requests := [.clear] }
    s.Inv ∧ ∃ t, step s = .next t :=
  ⟨⟨by decide, by decide, [(⟨0x41#8, .character⟩, true)], rfl⟩, _, rfl⟩

theorem witness_EveryStepKeepsEventsOwn :
    let s := { busy .initializing [.W 0x27#7 0xFF#8, .D 600] with requests := [.strobe 0xFF#8] }
    s.InitInProgress ∧ s.OwnEvents ∧ ∃ t, step s = .next t := ⟨by decide, by decide, _, rfl⟩

theorem witness_TraceOnlyGrowsByTheHeadEvent :
    (∃ t, step (busy .ready [.D 600]) = .next t ∧ t.trace = [.D 600]) ∧
    (∃ t, step { State.reset with requests := [.init] } = .next t ∧ t.trace = []) := ⟨⟨_, rfl, rfl⟩, ⟨_, rfl, rfl⟩⟩

/-- Both moves. -/
theorem witness_InitialisationMovesOnlyForward :
    (∃ t, step { State.reset with requests := [.init] } = .next t ∧ t.ist ≠ .uninitialized) ∧
    (∃ t, step (busy .initializing [.D 600]) = .next t ∧ t.ist ≠ .initializing) :=
  ⟨⟨_, rfl, by decide⟩, ⟨_, rfl, by decide⟩⟩

theorem witness_OnlySetBacklightWritesTheFlag :
    ∃ t, step { ready .twoLine true with requests := [.setBacklight false] } = .next t ∧ t.bl ≠ true :=
  ⟨_, rfl, by decide⟩

theorem witness_EncodeLosesNothing :
    exec (.encode 0xA5#8 .command true) State.reset = .next { State.reset with result := .frames 0xA8#8 0x58#8 } := rfl

theorem witness_StrobePulsesOnlyTheEnableLine : (0xFB#8 : Byte).getLsbD 2 = false := by decide

/-- The clause's own range, at both ends; the reject's, at both sides. -/
theorem witness_CgramAddressIsEightTimesTheSlot :
    ((0 : Int) ≤ 0 ∧ (0 : Int) < 8) ∧ ((0 : Int) ≤ 7 ∧ (7 : Int) < 8) ∧ ((-1 : Int) < 0) ∧ ((8 : Int) ≥ 8) := by decide

theorem witness_InitEmitsTheColdStartSequence :
    State.reset.AcceptsInit ∧ (ready .fourLine false).AcceptsInit := by decide

/-- `Accepts` in `Ready`, and before `init` under the emitting policy; the statements about one accepted operation
(clear, writeChar, print, setCursorVisibility, setBacklight) ask for nothing else. -/
theorem witness_accepts : (ready .twoLine true).Accepts ∧ (ready .fourLine false).Accepts ∧ emitting.Accepts := by
  decide

theorem witness_ClearSendsOneCommand : (ready .twoLine false).Accepts := by decide
theorem witness_WriteCharSendsTheCharacter : (ready .twoLine true).Accepts := by decide
theorem witness_PrintStreamsItsCharacters : (ready .fourLine true).Accepts := by decide
theorem witness_PrintIsWriteCharForEach : emitting.Accepts := by decide
theorem witness_SetCursorVisibilitySendsTheFlags : (ready .fourLine false).Accepts := by decide
theorem witness_SetBacklightWritesTheFlagFirst : (ready .twoLine true).Accepts := by decide
theorem witness_SetBacklightTwiceIsTheSame : emitting.Accepts := by decide

/-- Each policy, and each row of the four-line policy. -/
theorem witness_SetCursorSendsTheWrappedAddress :
    ((ready .twoLine true).Accepts ∧ (ready .twoLine true).cfg.addrPolicy = .twoLine) ∧
    ((ready .fourLine true).Accepts ∧ (ready .fourLine true).cfg.addrPolicy = .fourLine) ∧
    ∀ x ∈ [((0 : Int), (0x00 : Int)), (1, 0x40), (2, 0x14), (3, 0x54)],
      (x.1 = 0 ∧ x.2 = 0x00) ∨ (x.1 = 1 ∧ x.2 = 0x40) ∨ (x.1 = 2 ∧ x.2 = 0x14) ∨ (x.1 = 3 ∧ x.2 = 0x54) := by
  decide

theorem witness_SetCursorRejectsOtherRows : (ready .fourLine true).Accepts ∧
    (ready .fourLine true).cfg.addrPolicy = .fourLine ∧
    ((-1 : Int) < 0 ∨ (-1 : Int) > 3) ∧ ((4 : Int) < 0 ∨ (4 : Int) > 3) := by decide

/-- A text longer than the buffer without 0x00 in it. -/
theorem witness_PrintDropsFromTheThirtySecond :
    (ready .twoLine true).Accepts ∧ 0x00#8 ∉ List.replicate 32 0x41#8 := by decide

theorem witness_CreateCharSendsAddressAndRows :
    (ready .twoLine true).Accepts ∧ ((0 : Int) ≤ 0 ∧ (0 : Int) < 8) ∧ ((0 : Int) ≤ 7 ∧ (7 : Int) < 8) := by decide

theorem witness_CreateCharRejectsOtherSlots :
    (ready .twoLine true).Accepts ∧ ((-1 : Int) < 0 ∨ (-1 : Int) ≥ 8) ∧ ((8 : Int) < 0 ∨ (8 : Int) ≥ 8) := by decide

theorem witness_LaterTrafficCarriesTheBacklight :
    let i := Instr.writeChar 0x41#8
    i.isHostOp = true ∧ (ready .twoLine false).seq = [] ∧ (ready .twoLine false).ist ≠ .initializing ∧
    (∀ on, i ≠ .setBacklight on) ∧ ∃ t, exec i (ready .twoLine false) = .next t :=
  ⟨rfl, rfl, by decide, (fun _ h => nomatch h), _, rfl⟩

/-- An operation with an invalid argument too. -/
theorem witness_GatedOperationsAreRefusedBeforeInit :
    ∀ i ∈ [Instr.clear, .createChar 8 box], i.isHostOp = true ∧ i ≠ .init ∧ State.reset.seq = [] ∧
      State.reset.ist = .uninitialized ∧ State.reset.cfg.uninitPolicy = .refuse := by decide

theorem witness_EmitPolicyActsAsReady : Instr.clear.isHostOp = true ∧ Instr.clear ≠ .init ∧ emitting.seq = [] ∧
    emitting.ist = .uninitialized ∧ emitting.cfg.uninitPolicy = .emit := by decide

/-- Events left, and (unreachable) an `init` with none left. -/
theorem witness_HostOperationsWaitWhileBusy : Instr.clear.isHostOp = true ∧
    (busy .ready [.D 600]).seq ≠ [] ∧ (busy .initializing []).ist = .initializing := by decide

/-- Accepted and held back. -/
theorem witness_HostOperationsFrame :
    (Instr.clear.isHostOp = true ∧ (ready .twoLine true).AcceptsInit ∧ ∃ t, exec .clear (ready .twoLine true) = .next t) ∧
    (¬ (busy .ready [.D 600]).AcceptsInit ∧ ∃ t, exec .clear (busy .ready [.D 600]) = .next t) :=
  ⟨⟨rfl, by decide, _, rfl⟩, by decide, _, rfl⟩

/-- Rows that leave `SEQ`, and rows that leave the result. -/
theorem witness_InternalRowsFrame :
    (∀ i ∈ [Instr.encode 0#8 .command true, .ddramAddr .fourLine 4 0, .cgramAddr 8],
      i.isHostOp = false ∧ i.row ∈ [Row.encode, .ddramAddr, .cgramAddr]) ∧
    (∀ i ∈ [Instr.strobe 0#8, .frame 0#8, .clearDisplay],
      i.isHostOp = false ∧ i.row ∉ [Row.encode, .ddramAddr, .cgramAddr]) := by decide

theorem witness_HostOperationsEmitTheirTable :
    (Instr.init.isHostOp = true ∧ Instr.init = .init ∧ State.reset.AcceptsInit) ∧
    ((Instr.setCursor 1 5).isHostOp = true ∧ Instr.setCursor 1 5 ≠ .init ∧ (ready .fourLine true).Accepts) := by decide

/-- An accepted call and a rejected one. -/
theorem witness_HostOperationsCost : ∀ i ∈ [Instr.createChar 7 box, .createChar 8 box],
    i.isHostOp = true ∧ (ready .twoLine true).seq = [] ∧ (ready .twoLine true).ist ≠ .initializing ∧
      ∃ t, exec i (ready .twoLine true) = .next t := by
  intro i hi
  simp only [List.mem_cons, List.not_mem_nil, or_false] at hi
  rcases hi with rfl | rfl
  · exact ⟨rfl, rfl, by decide, _, rfl⟩
  · exact ⟨rfl, rfl, by decide, _, rfl⟩

/-- A command byte of each kind of the list is emitted. -/
theorem witness_OnlyListedCommandBytesAreEmitted :
    (ready .twoLine true).seq = [] ∧ (ready .twoLine true).ist ≠ .initializing ∧
    (∃ t, exec (.setCursor 0 0) (ready .twoLine true) = .next t ∧
      ⟨⟨0x80#8, .command⟩, true⟩ ∈ recover (latched t.seq)) ∧
    (∃ t, exec (.createChar 7 box) (ready .twoLine true) = .next t ∧
      ⟨⟨0x78#8, .command⟩, true⟩ ∈ recover (latched t.seq)) :=
  ⟨rfl, by decide, ⟨_, rfl, by decide⟩, ⟨_, rfl, by decide⟩⟩

theorem witness_EnableRisesAtEveryLatchedByte :
    (busy .ready (transferEvents constructorArguments true ⟨0xA5#8, .command⟩)).Framed :=
  ⟨[(⟨0xA5#8, .command⟩, true)], rfl⟩

theorem witness_HostOperationsAreLabelledByTheirTable :
    (Instr.setCursor 2 3).isHostOp = true ∧ (ready .fourLine true).seq = [] ∧
    (ready .fourLine true).ist ≠ .initializing ∧
    ∃ t, exec (.setCursor 2 3) (ready .fourLine true) = .next t ∧ commandLabels t.seq = [.setDdramAddr 0x17#7] :=
  ⟨rfl, rfl, by decide, _, rfl, by decide⟩

theorem witness_HungDelayBlocksForEver :
    let s := { busy .ready [.D 600, .W 0x27#7 0x0C#8] with delayReplies := [.never] }
    s.seq = .D 600 :: [.W 0x27#7 0x0C#8] ∧ s.delayReplies = .never :: [] := by decide

end Sys2Proof.Tests
end

/-! PROOFS. The transport's answers (spec/20_memory.md R27): an instruction carries the answers still to come through
unread, and performing an event reads of them only whether the next one is `never`. -/

namespace Sys2Proof.Machine

/-- A state with other transport answers to come. -/
def State.withWriteReplies (s : State) (ws : List WriteReply) : State := { s with writeReplies := ws }

/-- Change the state an outcome carries, if it carries one. -/
def mapNext (f : State → State) : Host.Outcome State Fault Refusal → Host.Outcome State Fault Refusal
  | .next s => .next (f s)
  | .fault r => .fault r
  | .refused r => .refused r

section

variable (s : State) (ws : List WriteReply)

@[simp] theorem State.withWriteReplies_cfg : (s.withWriteReplies ws).cfg = s.cfg := rfl
@[simp] theorem State.withWriteReplies_seq : (s.withWriteReplies ws).seq = s.seq := rfl
@[simp] theorem State.withWriteReplies_requests : (s.withWriteReplies ws).requests = s.requests := rfl
@[simp] theorem State.withWriteReplies_writeReplies : (s.withWriteReplies ws).writeReplies = ws := rfl
@[simp] theorem State.withWriteReplies_delayReplies : (s.withWriteReplies ws).delayReplies = s.delayReplies := rfl
@[simp] theorem State.withWriteReplies_idle : (s.withWriteReplies ws).idle = s.idle := rfl
@[simp] theorem State.withWriteReplies_admits : (s.withWriteReplies ws).admits = s.admits := rfl

/-! ## Instructions carry the answers through unread -/

theorem State.sendBytes_withWriteReplies (vs : List Byte) (m : Mode) :
    (s.withWriteReplies ws).sendBytes vs m = (s.sendBytes vs m).withWriteReplies ws := by
  rw [State.sendBytes_eq, State.sendBytes_eq]
  rfl

theorem State.present_withWriteReplies (i : Instr) {f : State → State}
    (hf : f (s.withWriteReplies ws) = (f s).withWriteReplies ws) :
    (s.withWriteReplies ws).present i f = mapNext (·.withWriteReplies ws) (s.present i f) := by
  simp only [State.present, State.withWriteReplies_idle, State.withWriteReplies_admits, hf]
  split
  · split <;> rfl
  · rfl

theorem State.presentInit_withWriteReplies {f : State → State}
    (hf : f (s.withWriteReplies ws) = (f s).withWriteReplies ws) :
    (s.withWriteReplies ws).presentInit f = mapNext (·.withWriteReplies ws) (s.presentInit f) := by
  simp only [State.presentInit, State.withWriteReplies_idle, hf]
  split <;> rfl

/-- No instruction reads or uses up an answer: only performing an event does (spec/20_memory.md R27). -/
theorem exec_withWriteReplies (i : Instr) :
    exec i (s.withWriteReplies ws) = mapNext (·.withWriteReplies ws) (exec i s) := by
  cases i <;> simp only [exec]
  case init =>
    exact s.presentInit_withWriteReplies ws
      (State.sendBytes_withWriteReplies { s with ist := .initializing } ws initBytes .command)
  case setCursor row col =>
    refine s.present_withWriteReplies ws _ ?_
    simp only [State.withWriteReplies_cfg]
    cases ddramAddress s.cfg.addrPolicy row col <;> rfl
  case print text => exact s.present_withWriteReplies ws _ (s.sendBytes_withWriteReplies ws (printable text) .character)
  case createChar location pattern =>
    refine s.present_withWriteReplies ws _ ?_
    cases cgramAddress location with
    | none => rfl
    | some a => exact (s.sendByte (glyphCommand a) .command).sendBytes_withWriteReplies ws pattern.rows .character
  case clear | writeChar | setCursorVisibility | setBacklight => exact s.present_withWriteReplies ws _ rfl
  case encode | strobe | sendByte | ddramAddr | cgramAddr | clearDisplay | returnHome | entryModeSet | displayControl
      | functionSet | setCgramAddr | setDdramAddr | litResync | lit4Bit | litBacklight | charData | frame => rfl

/-- With no operation in progress a step carries the answers through unread. -/
theorem step_withWriteReplies_of_seq_nil (hs : s.seq = []) :
    step (s.withWriteReplies ws) = mapNext (·.withWriteReplies ws) (step s) := by
  simp only [step, State.takeRequest, State.withWriteReplies_seq, State.withWriteReplies_requests, hs]
  cases s.requests with
  | nil => rfl
  | cons i rest =>
    simp only
    split
    · exact exec_withWriteReplies { s with seq := [], requests := rest } ws i
    · rfl

/-! ## Performing an event asks only whether the next answer is `never` -/

/-- A write whose call returns is performed, whatever it returned. -/
theorem State.perform_returned (a : BusAddress) (v : Byte) (rest : List Event)
    (h : s.writeReplies.head? ≠ some .never) :
    s.perform (.W a v) rest = (s.complete (.W a v) rest).withWriteReplies s.writeReplies.tail := by
  simp only [State.perform]
  split
  · simp_all
  · rfl

/-- A delay carries the transport's answers through unread. -/
theorem State.perform_delay_withWriteReplies (d : Nat) (rest : List Event) :
    (s.withWriteReplies ws).perform (.D d) rest = (s.perform (.D d) rest).withWriteReplies ws := by
  simp only [State.perform, State.withWriteReplies_delayReplies]
  split <;> rfl

variable {s ws} {ws' : List WriteReply}

/-- Performing an event under answers that hang alike leaves states that differ only in answers that hang alike. -/
theorem State.perform_sameHangs (e : Event) (rest : List Event) (h : SameHangs ws ws') :
    ∃ (t : State) (us us' : List WriteReply), SameHangs us us' ∧
      (s.withWriteReplies ws).perform e rest = t.withWriteReplies us ∧
      (s.withWriteReplies ws').perform e rest = t.withWriteReplies us' := by
  cases e with
  | D d => exact ⟨_, _, _, h, s.perform_delay_withWriteReplies ws d rest, s.perform_delay_withWriteReplies ws' d rest⟩
  | W a v =>
    have performed {us : List WriteReply} (hu : us.head? ≠ some .never) :
        (s.withWriteReplies us).perform (.W a v) rest = (s.complete (.W a v) rest).withWriteReplies us.tail :=
      State.perform_returned _ a v rest hu
    cases h with
    | nil => exact ⟨_, [], [], .nil, performed nofun, performed nofun⟩
    | @cons b b' us us' hb hrest =>
      by_cases hn : b = .never
      · subst hn
        obtain rfl := hb.mp rfl
        exact ⟨_, _, _, .cons hb hrest, State.perform_hung _ rest rfl, State.perform_hung _ rest rfl⟩
      · have hn' : b' ≠ .never := fun h => hn (hb.mpr h)
        exact ⟨_, us, us', hrest, performed (us := b :: us) (by simpa using hn),
          performed (us := b' :: us') (by simpa using hn')⟩

/-! ## Runs -/

/-- One step under answers that hang alike: both go on, to states that differ only in answers that hang alike, or both
are refused for the same reason. -/
theorem step_sameHangs (h : SameHangs ws ws') :
    (∃ (t : State) (us us' : List WriteReply), SameHangs us us' ∧
      step (s.withWriteReplies ws) = .next (t.withWriteReplies us) ∧
      step (s.withWriteReplies ws') = .next (t.withWriteReplies us')) ∨
    (∃ r, step (s.withWriteReplies ws) = .refused r ∧ step (s.withWriteReplies ws') = .refused r) := by
  cases hs : s.seq with
  | cons e rest =>
    obtain ⟨t, us, us', hu, ht, ht'⟩ := State.perform_sameHangs (s := s) e rest h
    have hstep (vs) : step (s.withWriteReplies vs) = .next ((s.withWriteReplies vs).perform e rest) := step_of_event hs
    exact .inl ⟨t, us, us', hu, by rw [hstep, ht], by rw [hstep, ht']⟩
  | nil =>
    rw [step_withWriteReplies_of_seq_nil s ws hs, step_withWriteReplies_of_seq_nil s ws' hs]
    cases step s with
    | next t => exact .inl ⟨t, ws, ws', h, rfl, rfl⟩
    | fault r => cases r
    | refused r => exact .inr ⟨r, rfl, rfl⟩

/-- Runs whose transports hang at the same calls agree on everything but the answers to come. -/
theorem runSteps_sameHangs (n : Nat) (h : SameHangs ws ws') :
    withoutReplies (runSteps n (s.withWriteReplies ws)) = withoutReplies (runSteps n (s.withWriteReplies ws')) := by
  induction n generalizing s ws ws' with
  | zero => rfl
  | succ n ih =>
    obtain ⟨t, us, us', hu, ht, ht'⟩ | ⟨r, hr, hr'⟩ := step_sameHangs (s := s) h
    · rw [runSteps_of_next ht, runSteps_of_next ht']
      exact ih hu
    · rw [runSteps_of_refused hr, runSteps_of_refused hr']

/-- A write answered `ok` or `error` leaves `SEQ` and joins the trace. -/
theorem step_write_returned {a : BusAddress} {v : Byte} {rest : List Event} {r : WriteReply}
    {replies : List WriteReply} (hs : s.seq = .W a v :: rest) (hw : s.writeReplies = r :: replies)
    (hr : r ≠ .never) :
    ∃ t, step s = .next t ∧ t.seq = rest ∧ t.trace = s.trace ++ [.W a v] := by
  have hp := s.perform_returned a v rest (by simpa [hw] using hr)
  exact ⟨_, (step_of_event hs).trans (congrArg _ hp), rfl, rfl⟩

end

/-- Settles O12: the runs agree by induction on the number of steps, each of which `step_sameHangs` relates; the one
write is `step_write_returned`. -/
theorem transportErrorsAreIgnored : Obligations.TransportErrorsAreIgnored :=
  ⟨fun _ _ _ n h => runSteps_sameHangs n h, fun _ _ _ _ _ _ hs hw hr => step_write_returned hs hw hr⟩

end Sys2Proof.Machine

/-! PROOFS. The nibble encoder (spec/40_nibble_encoder.md R70, R71). -/

namespace Sys2Proof.Machine

/-- The mode bit as the choice that R70's pseudocode writes. -/
theorem modeBits_eq_ite (m : Mode) : modeBits m = if m = .character then MODE_CHARACTER else MODE_COMMAND := by
  cases m <;> rfl

/-- ENCODE answers the pair of frames and does nothing else. -/
theorem exec_encode (s : State) (v : Byte) (m : Mode) (b : Bool) :
    exec (.encode v m b) s = .next (s.answer (.frames (highFrame v m b) (lowFrame v m b))) := rfl

/-- Settles O21: the answered frames are the two formulas once the mode bit is written as a choice. -/
theorem encodeIsTheTwoFormulas : Obligations.EncodeIsTheTwoFormulas := by
  intro s v m b
  rw [exec_encode, highFrame, lowFrame, modeBits_eq_ite]
  rfl

end Sys2Proof.Machine

/-! PROOFS. Cursor addressing (spec/43_cursor_addressing.md R100, R102, R106): the address calculators as the tables
of the spec, and the silent reject of `setCursor`. -/

namespace Sys2Proof.Machine

/-! ## DDRAM_ADDR -/

/-- DDRAM_ADDR answers the address and does nothing else. -/
theorem exec_ddramAddr (s : State) (policy : AddrPolicy) (row col : Int) :
    exec (.ddramAddr policy row col) s = .next (s.answer (addressResult (ddramAddress policy row col))) := rfl

theorem addressResult_ddramAddress_twoLine (row col : Int) :
    addressResult (ddramAddress .twoLine row col) = .address ((if row = 0 then 0x00 else 0x40) + col) := rfl

theorem addressResult_ddramAddress_fourLine (row col : Int) :
    addressResult (ddramAddress .fourLine row col) =
      if row = 0 then .address (0x00 + col)
      else if row = 1 then .address (0x40 + col)
      else if row = 2 then .address (0x14 + col)
      else if row = 3 then .address (0x54 + col)
      else .reject := by
  unfold ddramAddress
  split_ifs <;> rfl

/-- Settles O27: DDRAM_ADDR answers `addressResult (ddramAddress …)`, which each policy's table gives. -/
theorem ddramAddressByPolicy : Obligations.DdramAddressByPolicy := by
  intro s row col
  rw [exec_ddramAddr, exec_ddramAddr, addressResult_ddramAddress_twoLine, addressResult_ddramAddress_fourLine]
  exact ⟨rfl, rfl⟩

/-! ## CGRAM_ADDR -/

/-- CGRAM_ADDR answers the address and does nothing else. -/
theorem exec_cgramAddr (s : State) (location : Int) :
    exec (.cgramAddr location) s = .next (s.answer (addressResult (cgramAddress location))) := rfl

theorem addressResult_cgramAddress (location : Int) :
    addressResult (cgramAddress location) =
      if location < 0 ∨ location ≥ 8 then .reject else .address (location * 8) :=
  apply_ite addressResult _ _ _

/-- A six-bit address does not reach the opcode's bit, so OR-ing it in adds it. -/
theorem glyphCommand_toNat {a : Int} (h0 : 0 ≤ a) (h64 : a < 64) : (glyphCommand a).toNat = 0x40 + a.toNat := by
  have hlow : (low8 a).toNat = a.toNat := by
    rw [low8, BitVec.toNat_ofInt, Int.emod_eq_of_lt h0 (by omega)]
  rw [glyphCommand, BitVec.toNat_or, hlow]
  exact (Nat.two_pow_add_eq_or_of_lt (i := 6) (by omega) 1).symm

/-- Settles O28: a slot's address is at most 56, so the command byte is the opcode plus that address. -/
theorem cgramAddressIsEightTimesTheSlot : Obligations.CgramAddressIsEightTimesTheSlot := by
  intro s location
  refine ⟨?_, fun ⟨h0, h8⟩ => ?_⟩
  · rw [exec_cgramAddr, addressResult_cgramAddress]
    rfl
  · have hbyte := glyphCommand_toNat (a := location * 8) (by omega) (by omega)
    exact ⟨hbyte, by omega⟩

/-! ## The silent reject of `setCursor` -/

/-- An accepted operation other than `init` has its effect. -/
theorem State.present_of_accepts {s : State} (h : s.Accepts) (i : Instr) (f : State → State) :
    s.present i f = .next (f s) := by
  obtain ⟨hseq, hist⟩ := h
  refine s.present_accepted (s.idle_iff.mpr ⟨hseq, ?_⟩) (s.admits_iff.mpr ?_)
  · rcases hist with hready | ⟨huninit, -⟩
    · simp [hready]
    · simp [huninit]
  · rcases hist with hready | ⟨-, hemit⟩
    · exact .inl (by simp [hready])
    · exact .inr hemit

theorem ddramAddress_fourLine_of_row_outside {row : Int} (h : row < 0 ∨ row > 3) (col : Int) :
    ddramAddress .fourLine row col = none := by
  have h0 : row ≠ 0 := by omega
  have h1 : row ≠ 1 := by omega
  have h2 : row ≠ 2 := by omega
  have h3 : row ≠ 3 := by omega
  simp [ddramAddress, h0, h1, h2, h3]

/-- `setCursor` accepted with an address that is a reject changes nothing. -/
theorem exec_setCursor_of_reject {s : State} (h : s.Accepts) {row col : Int}
    (hr : ddramAddress s.cfg.addrPolicy row col = none) : exec (.setCursor row col) s = .next s := by
  simp only [exec, execSetCursor, State.present_of_accepts h, hr, State.reject_eq]

/-- Settles O35: the four-line table has no such row, and an accepted `setCursor` without an address ends at once. -/
theorem setCursorRejectsOtherRows : Obligations.SetCursorRejectsOtherRows := by
  intro s row col hs hpolicy hrow
  exact exec_setCursor_of_reject hs (hpolicy ▸ ddramAddress_fourLine_of_row_outside hrow col)

end Sys2Proof.Machine

/-! PROOFS. Glyphs and text (spec/44_glyph_text.md R115, R120): the silent reject of `createChar`, and the cap of
`print`. -/

namespace Sys2Proof.Machine

/-! ## The silent reject of `createChar` -/

theorem cgramAddress_of_slot_outside {location : Int} (h : location < 0 ∨ location ≥ 8) :
    cgramAddress location = none :=
  if_pos h

/-- `createChar` accepted with a slot that is a reject changes nothing: the pattern is not looked at. -/
theorem exec_createChar_of_reject {s : State} (h : s.Accepts) {location : Int} (p : Glyph)
    (hr : cgramAddress location = none) : exec (.createChar location p) s = .next s := by
  simp only [exec, execCreateChar, State.present_of_accepts h, hr, State.reject_eq]

/-- Settles O42: CGRAM has no such slot, and an accepted `createChar` without an address ends at once. -/
theorem createCharRejectsOtherSlots : Obligations.CreateCharRejectsOtherSlots := by
  intro s location p hs hslot
  exact exec_createChar_of_reject hs p (cgramAddress_of_slot_outside hslot)

/-! ## The characters `print` sends -/

/-- The cap of 31 makes what follows the 31st character irrelevant. -/
theorem printable_take (text : List Byte) : printable (text.take 31) = printable text := by
  rw [printable, printable, PRINT_CAP, List.take_takeWhile, List.take_takeWhile, List.take_take, Nat.min_self]

/-- Without a terminator only the cap of 31 cuts a text. -/
theorem printable_of_not_mem {text : List Byte} (h : 0x00#8 ∉ text) : printable text = text.take 31 := by
  have hall : ∀ c ∈ text, (c != 0x00#8) = true := fun c hc => bne_iff_ne.mpr fun h0 => h (h0 ▸ hc)
  rw [printable, PRINT_CAP, List.takeWhile_eq_self_iff.mpr hall]

/-! ## The events of a loop of byte transfers -/

section

variable (s : State)

/-- A byte transfer appends twelve events, six for each strobe. -/
theorem State.sendByte_seq_length (v : Byte) (m : Mode) : (s.sendByte v m).seq.length = s.seq.length + 12 := by
  rw [State.sendByte_eq, State.emit_seq, List.length_append]
  rfl

/-- A loop of byte transfers changes nothing but the events to be performed. -/
theorem State.sendBytes_eq_with_seq (vs : List Byte) (m : Mode) :
    s.sendBytes vs m = { s with seq := (s.sendBytes vs m).seq } := by
  rw [State.sendBytes_eq]
  rfl

variable {s}

/-- With nothing in progress a loop's events are those of its transfers, each as if it were alone. -/
theorem State.sendBytes_seq_of_seq_nil (h : s.seq = []) (vs : List Byte) (m : Mode) :
    (s.sendBytes vs m).seq = vs.flatMap fun v => (s.sendByte v m).seq := by
  simp only [State.sendBytes_eq, State.sendByte_eq, State.emit_seq, h, List.nil_append]

theorem State.sendBytes_seq_length_of_seq_nil (h : s.seq = []) (vs : List Byte) (m : Mode) :
    (s.sendBytes vs m).seq.length = 12 * vs.length := by
  simp [State.sendBytes_seq_of_seq_nil h, List.length_flatMap, State.sendByte_seq_length, h, Nat.mul_comm]

/-! ## `writeChar` and `print` accepted -/

theorem exec_writeChar_of_accepts (h : s.Accepts) (c : Byte) :
    exec (.writeChar c) s = .next (s.sendByte c .character) := by
  simp only [exec, execWriteChar, State.present_of_accepts h]

theorem exec_print_of_accepts (h : s.Accepts) (text : List Byte) :
    exec (.print text) s = .next (s.sendBytes (printable text) .character) := by
  simp only [exec, execPrint, State.present_of_accepts h]

end

/-- Settles O38: `print` reads its text through `printable` alone, which the cut to 31 leaves as it is and which is
that cut where there is no terminator. -/
theorem printDropsFromTheThirtySecond : Obligations.PrintDropsFromTheThirtySecond := by
  intro s text hs
  have hseq : s.seq = [] := hs.1
  refine ⟨_, exec_print_of_accepts hs text, ?_, s.sendBytes_eq_with_seq _ _, fun hzero => ?_⟩
  · rw [exec_print_of_accepts hs, printable_take]
  · rw [printable_of_not_mem hzero]
    constructor
    · rw [State.sendBytes_seq_length_of_seq_nil hseq, List.length_take, Nat.min_comm]
    · simp only [State.sendBytes_seq_of_seq_nil hseq, exec_writeChar_of_accepts hs, eventsOf]

end Sys2Proof.Machine

/-! PROOFS. The byte transfer (spec/40_nibble_encoder.md R70 to R75, spec/41_enable_strobe.md R78 to R88): ENCODE's
frames in arithmetic, STROBE on a frame with its enable bit clear, and SENDBYTE as the transfer of R88. -/

namespace Sys2Proof.Machine

/-! ## ENCODE -/

theorem highFrame_toNat (v : Byte) (m : Mode) (b : Bool) :
    (highFrame v m b).toNat = 16 * (v.toNat / 16) + controlNibble m b := by
  cases m <;> cases b <;> revert v <;> decide

theorem lowFrame_toNat (v : Byte) (m : Mode) (b : Bool) :
    (lowFrame v m b).toNat = 16 * (v.toNat % 16) + controlNibble m b := by
  cases m <;> cases b <;> revert v <;> decide

/-- ENCODE leaves the enable and the read/write bit of both frames clear (R74). -/
theorem frames_reserved_bits_clear (v : Byte) (m : Mode) (b : Bool) :
    highFrame v m b &&& (EN_BIT ||| RW_BIT) = 0x00#8 ∧ lowFrame v m b &&& (EN_BIT ||| RW_BIT) = 0x00#8 := by
  cases m <;> cases b <;> revert v <;> decide

/-- The two frames carry ENCODE's arguments (R75). -/
theorem recoverPair_frames (v : Byte) (m : Mode) (b : Bool) :
    recoverPair (highFrame v m b) (lowFrame v m b) = (⟨v, m⟩, b) := by
  cases m <;> cases b <;> revert v <;> decide

/-- Settles O22: the answered frames in arithmetic, and their two bits that ENCODE never sets. -/
theorem encodeFramesFieldByField : Obligations.EncodeFramesFieldByField := fun s v m b =>
  ⟨highFrame v m b, lowFrame v m b, exec_encode s v m b, highFrame_toNat v m b, lowFrame_toNat v m b,
    frames_reserved_bits_clear v m b⟩

/-- The answer of ENCODE determines its two frames. -/
theorem exec_encode_eq_next_iff (s : State) (v : Byte) (m : Mode) (b : Bool) (high low : Byte) :
    exec (.encode v m b) s = .next { s with result := .frames high low } ↔
      highFrame v m b = high ∧ lowFrame v m b = low := by
  simp [exec_encode, State.answer]

/-- Settles O23: the frames are those of ENCODE, from which `recoverPair_frames` gives back the arguments. -/
theorem encodeLosesNothing : Obligations.EncodeLosesNothing := by
  intro s v m b high low h
  obtain ⟨rfl, rfl⟩ := (exec_encode_eq_next_iff s v m b high low).mp h
  refine ⟨recoverPair_frames v m b, fun v' m' b' h' => ?_⟩
  obtain ⟨hhigh, hlow⟩ := (exec_encode_eq_next_iff s v' m' b' _ _).mp (h'.trans h)
  have hsame : ((⟨v', m'⟩ : ControllerByte), b') = (⟨v, m⟩, b) := by
    rw [← recoverPair_frames v' m' b', hhigh, hlow, recoverPair_frames]
  simpa [and_assoc] using hsame

/-! ## STROBE -/

theorem exec_strobe (s : State) (f : Byte) : exec (.strobe f) s = .next (s.emit (strobeEvents s.cfg f)) := rfl

/-- Settles O24: the events STROBE emits, written out. -/
theorem strobeEmitsSixEvents : Obligations.StrobeEmitsSixEvents := fun s f => exec_strobe s f

/-- A clear enable bit is raised by adding its value. -/
theorem or_EN_BIT_of_clear {f : Byte} (h : f.getLsbD 2 = false) : f ||| EN_BIT = f + 4#8 := by
  revert f
  decide

/-- Dropping the enable bit of a frame that has it clear changes nothing. -/
theorem and_not_EN_BIT_of_clear {f : Byte} (h : f.getLsbD 2 = false) : f &&& ~~~EN_BIT = f := by
  revert f
  decide

theorem strobeEvents_of_clear (c : Config) {f : Byte} (h : f.getLsbD 2 = false) :
    strobeEvents c f =
      [.W c.busAddr f, .D c.strobeDelayUs, .W c.busAddr (f + 4#8), .D c.strobeDelayUs,
       .W c.busAddr f, .D c.strobeDelayUs] := by
  simp only [strobeEvents, busWrite, delay, or_EN_BIT_of_clear h, and_not_EN_BIT_of_clear h]

/-- Settles O25: STROBE's events, the enable bit being clear before and after the pulse. -/
theorem strobePulsesOnlyTheEnableLine : Obligations.StrobePulsesOnlyTheEnableLine := by
  intro s f h
  rw [exec_strobe, strobeEvents_of_clear s.cfg h]
  rfl

/-! ## SENDBYTE -/

theorem frames_enable_clear (v : Byte) (m : Mode) (b : Bool) :
    (highFrame v m b).getLsbD 2 = false ∧ (lowFrame v m b).getLsbD 2 = false := by
  cases m <;> cases b <;> revert v <;> decide

/-- Strobing a frame with its enable bit clear is one nibble of R88. -/
theorem strobeEvents_eq_nibbleEvents (cfg : Config) {f : Byte} {c n : Nat} (h : f.getLsbD 2 = false)
    (hf : f.toNat = 16 * n + c) : strobeEvents cfg f = nibbleEvents cfg c n := by
  have hbyte : f = BitVec.ofNat 8 (16 * n + c) := by rw [← hf, BitVec.ofNat_toNat, BitVec.setWidth_eq]
  rw [strobeEvents_of_clear cfg h, nibbleEvents, BitVec.ofNat_add (16 * n + c) 4, ← hbyte]

/-- The strobes of ENCODE's two frames are the byte transfer in closed form (R88). -/
theorem strobeEvents_frames (cfg : Config) (v : Byte) (m : Mode) (b : Bool) :
    strobeEvents cfg (highFrame v m b) ++ strobeEvents cfg (lowFrame v m b) = transferEvents cfg b ⟨v, m⟩ := by
  obtain ⟨hhigh, hlow⟩ := frames_enable_clear v m b
  rw [strobeEvents_eq_nibbleEvents cfg hhigh (highFrame_toNat v m b),
    strobeEvents_eq_nibbleEvents cfg hlow (lowFrame_toNat v m b)]
  rfl

/-- SENDBYTE emits one byte transfer under the flag `BL` holds (R82, R84). -/
theorem State.sendByte_eq_emit (s : State) (v : Byte) (m : Mode) :
    s.sendByte v m = s.emit (transferEvents s.cfg s.bl ⟨v, m⟩) := by
  rw [State.sendByte_eq, strobeEvents_frames]

/-- A loop of byte transfers emits them one after the other. -/
theorem State.sendBytes_eq_emit (s : State) (vs : List Byte) (m : Mode) :
    s.sendBytes vs m = s.emit (transfersEvents s.cfg s.bl (vs.map (ControllerByte.mk · m))) := by
  simp only [State.sendBytes_eq, strobeEvents_frames, transfersEvents, List.flatMap_map]

/-- Settles O26: SENDBYTE emits the transfer and does nothing else. -/
theorem sendByteInClosedForm : Obligations.SendByteInClosedForm := fun s v m =>
  congrArg Host.Outcome.next (s.sendByte_eq_emit v m)

/-! ## FRAME -/

/-- Settles O31: FRAME emits the one bus write. -/
theorem frameIsOneBusWrite : Obligations.FrameIsOneBusWrite := fun _ _ => rfl

end Sys2Proof.Machine

/-! PROOFS. The controller bytes (spec/30_encoding.md R51 to R58, R67) and the host operations (R61): each command
byte as the number the table gives it, and each meaning as the transfers its row of the table lists. -/

namespace Sys2Proof.Machine

/-! ## Command bytes as numbers -/

theorem entryModeByte_eq (left shift : Bool) :
    entryModeByte left shift = BitVec.ofNat 8 (0x04 + 2 * bitNat left + bitNat shift) := by
  cases left <;> cases shift <;> rfl

theorem displayControlByte_eq (display cursor blink : Bool) :
    displayControlByte display cursor blink =
      BitVec.ofNat 8 (0x08 + 4 * bitNat display + 2 * bitNat cursor + bitNat blink) := by
  cases display <;> cases cursor <;> cases blink <;> rfl

theorem functionSetByte_eq (eightBit twoLine tallFont : Bool) :
    functionSetByte eightBit twoLine tallFont =
      BitVec.ofNat 8 (0x20 + 16 * bitNat eightBit + 8 * bitNat twoLine + 4 * bitNat tallFont) := by
  cases eightBit <;> cases twoLine <;> cases tallFont <;> rfl

theorem setCgramByte_eq (addr : BitVec 6) : setCgramByte addr = BitVec.ofNat 8 (0x40 + addr.toNat) := by
  revert addr
  decide

theorem setDdramByte_eq (addr : BitVec 7) : setDdramByte addr = BitVec.ofNat 8 (0x80 + addr.toNat) := by
  revert addr
  decide

theorem backlightByte_eq (on : Bool) : backlightByte on = BitVec.ofNat 8 (8 * bitNat on) := by
  cases on <;> rfl

theorem low8_toNat (a : Int) : (low8 a).toNat = (a % 256).toNat := by
  rw [low8, BitVec.toNat_ofInt]
  rfl

/-- OR-ing the opcode of SETDDRAMADDR into a byte keeps the seven bits below it. -/
theorem or_CMD_SETDDRAMADDR (x : Byte) : CMD_SETDDRAMADDR ||| x = BitVec.ofNat 8 (128 + x.toNat % 128) := by
  revert x
  decide

/-- `setCursor` sends the address modulo 128, whatever the address (spec/43_cursor_addressing.md R103). -/
theorem cursorCommand_eq (a : Int) : cursorCommand a = BitVec.ofNat 8 (128 + (a % 128).toNat) := by
  have hmod : (a % 256).toNat % 128 = (a % 128).toNat := by omega
  rw [cursorCommand, or_CMD_SETDDRAMADDR, low8_toNat, hmod]

theorem glyphCommand_eq {location : Int} (h0 : 0 ≤ location) (h8 : location < 8) :
    glyphCommand (location * 8) = BitVec.ofNat 8 (0x40 + 8 * location.toNat) := by
  have hnat := glyphCommand_toNat (a := location * 8) (by omega) (by omega)
  apply BitVec.eq_of_toNat_eq
  rw [hnat, BitVec.toNat_ofNat]
  omega

/-! ## Controller bytes presented as instructions -/

/-- One command byte given by its number is one transfer. -/
theorem State.sendByte_command (s : State) {v : Byte} {n : Nat} (h : v = BitVec.ofNat 8 n) :
    s.sendByte v .command = s.emit (transferEvents s.cfg s.bl (commandByte n)) := by
  rw [State.sendByte_eq_emit, h, commandByte]

/-- A meaning that is one command byte, with that byte given by its number. -/
theorem exec_command {i : Instr} {s : State} {v : Byte} {n : Nat} (h : exec i s = .next (s.sendByte v .command))
    (hv : v = BitVec.ofNat 8 n) :
    exec i s = .next { s with seq := s.seq ++ transferEvents s.cfg s.bl (commandByte n) } := by
  rw [h, State.sendByte_command s hv]
  rfl

/-- Settles O29: each command of the vocabulary is a SENDBYTE of its byte, which is the number the table gives. -/
theorem vocabularyCommandsSendTheirBytes : Obligations.VocabularyCommandsSendTheirBytes := fun _ x y z a6 a7 =>
  ⟨exec_command rfl rfl, exec_command rfl rfl, exec_command rfl (entryModeByte_eq x y),
    exec_command rfl (displayControlByte_eq x y z), exec_command rfl (functionSetByte_eq x y z),
    exec_command rfl (setCgramByte_eq a6), exec_command rfl (setDdramByte_eq a7)⟩

/-- Settles O30: the literals are commands like the others, and CHARDATA is SENDBYTE in the other mode. -/
theorem literalsAndCharactersSendTheirBytes : Obligations.LiteralsAndCharactersSendTheirBytes := fun s on c =>
  ⟨exec_command rfl rfl, exec_command rfl rfl, exec_command rfl (by cases on <;> rfl),
    congrArg Host.Outcome.next (s.sendByte_eq_emit c .character)⟩

/-! ## The address calculators against the table of row bases -/

/-- DDRAM_ADDR adds the column to the row's base, and rejects exactly the rows that have none. -/
theorem ddramAddress_eq_rowBase (policy : AddrPolicy) (row col : Int) :
    ddramAddress policy row col = (rowBase policy row).map (· + col) := by
  unfold rowBase
  split <;> simp_all [ddramAddress, LINE2_BASE, ROW_OFFSET_4L]

theorem cgramAddress_of_slot {location : Int} (h0 : 0 ≤ location) (h8 : location < 8) :
    cgramAddress location = some (location * 8) :=
  if_neg (by simp only [GLYPH_SLOTS]; omega)

/-! ## What an accepted host operation does -/

/-- What an accepted host operation leaves: the transfers its table row lists (`transfersOf`) join `SEQ`, under the
flag `BL` has after the operation's own write. -/
def State.accepted (s : State) (i : Instr) : State :=
  { s with
    bl := backlightAfter s.bl i
    ist := if i = .init then .initializing else s.ist
    seq := s.seq ++ transfersEvents s.cfg (backlightAfter s.bl i) (transfersOf s.cfg i) }

/-- Only `setBacklight` changes the flag (spec/10_state.md R12). -/
theorem backlightAfter_of_ne (bl : Bool) {i : Instr} (h : ∀ on, i ≠ .setBacklight on) :
    backlightAfter bl i = bl := by
  cases i with
  | setBacklight on => exact absurd rfl (h on)
  | _ => rfl

theorem State.accepted_eq_emit (s : State) (i : Instr) (hinit : i ≠ .init) (hbl : ∀ on, i ≠ .setBacklight on) :
    s.accepted i = s.emit (transfersEvents s.cfg s.bl (transfersOf s.cfg i)) := by
  simp only [State.accepted, State.emit, backlightAfter_of_ne s.bl hbl, if_neg hinit]

/-- The transfers of a single controller byte. -/
@[simp] theorem transfersEvents_singleton (cfg : Config) (bl : Bool) (b : ControllerByte) :
    transfersEvents cfg bl [b] = transferEvents cfg bl b :=
  List.flatMap_singleton ..

/-- An operation that sends one command byte has the effect its row of the table lists. -/
theorem State.sendByte_command_eq_accepted (s : State) (i : Instr) {v : Byte} {n : Nat} (hinit : i ≠ .init)
    (hbl : ∀ on, i ≠ .setBacklight on) (ht : transfersOf s.cfg i = [commandByte n]) (hv : v = BitVec.ofNat 8 n) :
    s.sendByte v .command = s.accepted i := by
  rw [State.sendByte_command s hv, State.accepted_eq_emit s i hinit hbl, ht, transfersEvents_singleton]

theorem init_effect (s : State) :
    { s with ist := .initializing }.sendBytes initBytes .command = s.accepted .init := by
  rw [State.sendBytes_eq_emit]
  rfl

theorem clear_effect (s : State) : s.sendByte CMD_CLEARDISPLAY .command = s.accepted .clear :=
  s.sendByte_command_eq_accepted .clear nofun nofun rfl rfl

theorem setCursorVisibility_effect (s : State) (visible blink : Bool) :
    s.sendByte (displayControlByte true visible blink) .command = s.accepted (.setCursorVisibility visible blink) :=
  s.sendByte_command_eq_accepted (.setCursorVisibility visible blink) nofun nofun rfl
    (displayControlByte_eq true visible blink)

theorem setCursor_effect (s : State) (row col : Int) :
    (match ddramAddress s.cfg.addrPolicy row col with
      | none => s.reject
      | some a => s.sendByte (cursorCommand a) .command) = s.accepted (.setCursor row col) := by
  rw [ddramAddress_eq_rowBase]
  cases hbase : rowBase s.cfg.addrPolicy row with
  | none =>
    have ht : transfersOf s.cfg (.setCursor row col) = [] := by simp [transfersOf, hbase]
    rw [s.accepted_eq_emit (.setCursor row col) nofun nofun, ht]
    exact s.emit_nil.symm
  | some base =>
    exact s.sendByte_command_eq_accepted (.setCursor row col) nofun nofun (by simp [transfersOf, hbase])
      (cursorCommand_eq (base + col))

theorem createChar_effect (s : State) (location : Int) (p : Glyph) :
    (match cgramAddress location with
      | none => s.reject
      | some a => (s.sendByte (glyphCommand a) .command).sendBytes p.rows .character) =
      s.accepted (.createChar location p) := by
  rw [s.accepted_eq_emit (.createChar location p) nofun nofun]
  by_cases hslot : 0 ≤ location ∧ location < 8
  · rw [cgramAddress_of_slot hslot.1 hslot.2]
    simp only [transfersOf, if_pos hslot]
    rw [s.sendByte_command (glyphCommand_eq hslot.1 hslot.2), State.sendBytes_eq_emit, State.emit_emit]
    rfl
  · rw [cgramAddress_of_slot_outside (by omega)]
    simp only [transfersOf, if_neg hslot]
    exact s.emit_nil.symm

theorem writeChar_effect (s : State) (c : Byte) : s.sendByte c .character = s.accepted (.writeChar c) := by
  rw [State.sendByte_eq_emit, s.accepted_eq_emit (.writeChar c) nofun nofun]
  simp only [transfersOf, characterByte, transfersEvents_singleton]

theorem print_effect (s : State) (text : List Byte) :
    s.sendBytes (printable text) .character = s.accepted (.print text) := by
  rw [State.sendBytes_eq_emit, s.accepted_eq_emit (.print text) nofun nofun]
  rfl

theorem setBacklight_effect (s : State) (on : Bool) :
    { s with bl := on }.sendByte (backlightByte on) .command = s.accepted (.setBacklight on) := by
  rw [State.sendByte_command _ (backlightByte_eq on)]
  simp [State.accepted, backlightAfter, transfersOf, State.emit]

theorem exec_init (s : State) : exec .init s = s.presentInit (·.accepted .init) := by
  rw [exec, execInit, State.presentInit, State.presentInit, init_effect]

/-- Every host operation but `init` is admitted alike and, accepted, sends what its table row lists (R61). -/
theorem exec_gated (s : State) {i : Instr} (hhost : i.isHostOp = true) (hinit : i ≠ .init) :
    exec i s = s.present i (·.accepted i) := by
  cases i with
  | init => exact absurd rfl hinit
  | clear => exact congrArg (s.present .clear) (funext clear_effect)
  | setCursor row col => exact congrArg (s.present _) (funext (setCursor_effect · row col))
  | writeChar c => exact congrArg (s.present _) (funext (writeChar_effect · c))
  | print text => exact congrArg (s.present _) (funext (print_effect · text))
  | setCursorVisibility visible blink =>
    exact congrArg (s.present _) (funext (setCursorVisibility_effect · visible blink))
  | createChar location p => exact congrArg (s.present _) (funext (createChar_effect · location p))
  | setBacklight on => exact congrArg (s.present _) (funext (setBacklight_effect · on))
  | _ => cases hhost

end Sys2Proof.Machine

/-! PROOFS. What a trace of byte transfers shows (spec/20_memory.md R28, R30, R43, spec/70_reset_and_hazards.md
R165): a strobe first, then a transfer, then a list of transfers by induction. -/

namespace Sys2Proof.Machine

/-! ## Traces one after the other -/

@[simp] theorem writtenBytes_append (xs ys : List Event) :
    writtenBytes (xs ++ ys) = writtenBytes xs ++ writtenBytes ys := by
  induction xs with
  | nil => rfl
  | cons e xs ih => cases e <;> simp [writtenBytes, ih]

@[simp] theorem delayTimes_append (xs ys : List Event) : delayTimes (xs ++ ys) = delayTimes xs ++ delayTimes ys := by
  induction xs with
  | nil => rfl
  | cons e xs ih => cases e <;> simp [delayTimes, ih]

@[simp] theorem latched_append (xs ys : List Event) : latched (xs ++ ys) = latched xs ++ latched ys := by
  induction xs with
  | nil => rfl
  | cons e xs ih =>
    cases e with
    | D t => exact ih
    | W a v =>
      simp only [List.cons_append, latched, ih]
      split <;> rfl

theorem transfersEvents_cons (cfg : Config) (bl : Bool) (b : ControllerByte) (bs : List ControllerByte) :
    transfersEvents cfg bl (b :: bs) = transferEvents cfg bl b ++ transfersEvents cfg bl bs :=
  List.flatMap_cons ..

/-- The transfers under one flag are transfers of bytes with that flag. -/
theorem transfersEvents_eq_flatMap (cfg : Config) (bl : Bool) (bs : List ControllerByte) :
    transfersEvents cfg bl bs = (bs.map (·, bl)).flatMap fun x => transferEvents cfg x.2 x.1 := by
  rw [transfersEvents, List.flatMap_map]

/-- A byte transfer as the strobes of ENCODE's two frames. -/
theorem transferEvents_eq_strobes (cfg : Config) (bl : Bool) (b : ControllerByte) :
    transferEvents cfg bl b =
      strobeEvents cfg (highFrame b.value b.mode bl) ++ strobeEvents cfg (lowFrame b.value b.mode bl) :=
  (strobeEvents_frames cfg b.value b.mode bl).symm

/-! ## The written bytes -/

/-- A strobe changes no bit of the frame but the enable bit. -/
theorem and_mask_of_mem_writtenBytes_strobe {cfg : Config} {f w mask : Byte} (hraise : EN_BIT &&& mask = 0x00#8)
    (hdrop : ~~~EN_BIT &&& mask = mask) (h : w ∈ writtenBytes (strobeEvents cfg f)) : w &&& mask = f &&& mask := by
  have hw : w ∈ [f, f ||| EN_BIT, f &&& ~~~EN_BIT] := h
  simp only [List.mem_cons, List.not_mem_nil, or_false] at hw
  obtain rfl | rfl | rfl := hw
  · rfl
  · rw [BitVec.and_or_distrib_right, hraise, BitVec.or_zero]
  · rw [BitVec.and_assoc, hdrop]

/-- Every byte of a transfer agrees with one of ENCODE's frames outside the enable bit. -/
theorem and_mask_of_mem_writtenBytes_transfer {cfg : Config} {bl : Bool} {b : ControllerByte} {w mask : Byte}
    (hraise : EN_BIT &&& mask = 0x00#8) (hdrop : ~~~EN_BIT &&& mask = mask)
    (h : w ∈ writtenBytes (transferEvents cfg bl b)) :
    w &&& mask = highFrame b.value b.mode bl &&& mask ∨ w &&& mask = lowFrame b.value b.mode bl &&& mask := by
  rw [transferEvents_eq_strobes, writtenBytes_append, List.mem_append] at h
  exact h.imp (and_mask_of_mem_writtenBytes_strobe hraise hdrop) (and_mask_of_mem_writtenBytes_strobe hraise hdrop)

theorem frames_backlight (v : Byte) (m : Mode) (b : Bool) :
    (highFrame v m b &&& BL_BIT != 0x00#8) = b ∧ (lowFrame v m b &&& BL_BIT != 0x00#8) = b := by
  cases m <;> cases b <;> revert v <;> decide

theorem frames_readWrite (v : Byte) (m : Mode) (b : Bool) :
    highFrame v m b &&& RW_BIT = 0x00#8 ∧ lowFrame v m b &&& RW_BIT = 0x00#8 := by
  cases m <;> cases b <;> revert v <;> decide

/-- Every byte of a transfer carries the flag it is sent under (spec/40_nibble_encoder.md R73). -/
theorem backlight_of_mem_writtenBytes {cfg : Config} {bl : Bool} {bs : List ControllerByte} {w : Byte}
    (h : w ∈ writtenBytes (transfersEvents cfg bl bs)) : (w &&& BL_BIT != 0x00#8) = bl := by
  induction bs with
  | nil => cases h
  | cons b bs ih =>
    rw [transfersEvents_cons, writtenBytes_append, List.mem_append] at h
    obtain ⟨hhigh, hlow⟩ := frames_backlight b.value b.mode bl
    rcases h with h | h
    · rcases and_mask_of_mem_writtenBytes_transfer (mask := BL_BIT) rfl rfl h with hw | hw
      · rw [hw, hhigh]
      · rw [hw, hlow]
    · exact ih h

theorem readWrite_of_mem_writtenBytes {cfg : Config} {xs : List (ControllerByte × Bool)} {w : Byte}
    (h : w ∈ writtenBytes (xs.flatMap fun x => transferEvents cfg x.2 x.1)) : w &&& RW_BIT = 0x00#8 := by
  induction xs with
  | nil => cases h
  | cons x xs ih =>
    rw [List.flatMap_cons, writtenBytes_append, List.mem_append] at h
    obtain ⟨hhigh, hlow⟩ := frames_readWrite x.1.value x.1.mode x.2
    rcases h with h | h
    · rcases and_mask_of_mem_writtenBytes_transfer (mask := RW_BIT) rfl rfl h with hw | hw
      · rw [hw, hhigh]
      · rw [hw, hlow]
    · exact ih h

/-! ## The receiver -/

/-- The enable line during a strobe of a frame with its enable bit clear: low, high, low. -/
theorem enable_during_strobe {f : Byte} (h : f.getLsbD 2 = false) :
    f &&& EN_BIT = 0x00#8 ∧ (f ||| EN_BIT) &&& EN_BIT = EN_BIT ∧ f &&& ~~~EN_BIT &&& EN_BIT = 0x00#8 := by
  revert f
  decide

/-- A strobe latches one byte: the frame with its enable bit raised. -/
theorem latched_strobeEvents (cfg : Config) {f : Byte} (h : f.getLsbD 2 = false) :
    latched (strobeEvents cfg f) = [f ||| EN_BIT] := by
  obtain ⟨hlow, hhigh, hdrop⟩ := enable_during_strobe h
  simp [strobeEvents, busWrite, delay, latched, hlow, hhigh, hdrop, show EN_BIT ≠ 0x00#8 by decide]

/-- The enable line rises once during a strobe, at the latched byte, and is low afterwards. -/
theorem enableRises_strobeEvents_append (cfg : Config) {f : Byte} (h : f.getLsbD 2 = false) (rest : List Event) :
    enableRises false (strobeEvents cfg f ++ rest) = latched (strobeEvents cfg f) ++ enableRises false rest := by
  obtain ⟨hlow, hhigh, hdrop⟩ := enable_during_strobe h
  rw [latched_strobeEvents cfg h]
  simp [strobeEvents, busWrite, delay, enableRises, hlow, hhigh, hdrop, show EN_BIT ≠ 0x00#8 by decide]

theorem latched_transferEvents (cfg : Config) (bl : Bool) (b : ControllerByte) :
    latched (transferEvents cfg bl b) =
      [highFrame b.value b.mode bl ||| EN_BIT, lowFrame b.value b.mode bl ||| EN_BIT] := by
  obtain ⟨hhigh, hlow⟩ := frames_enable_clear b.value b.mode bl
  rw [transferEvents_eq_strobes, latched_append, latched_strobeEvents cfg hhigh, latched_strobeEvents cfg hlow]
  rfl

theorem enableRises_transferEvents_append (cfg : Config) (bl : Bool) (b : ControllerByte) (rest : List Event) :
    enableRises false (transferEvents cfg bl b ++ rest) =
      latched (transferEvents cfg bl b) ++ enableRises false rest := by
  obtain ⟨hhigh, hlow⟩ := frames_enable_clear b.value b.mode bl
  rw [transferEvents_eq_strobes, List.append_assoc, enableRises_strobeEvents_append cfg hhigh,
    enableRises_strobeEvents_append cfg hlow, latched_append, List.append_assoc]

/-- A receiver does not look at the enable bit of a latched byte. -/
theorem recoverPair_or_EN_BIT (h l : Byte) : recoverPair (h ||| EN_BIT) (l ||| EN_BIT) = recoverPair h l := by
  have hmask (mask x : Byte) (hm : EN_BIT &&& mask = 0x00#8) : (x ||| EN_BIT) &&& mask = x &&& mask := by
    rw [BitVec.and_or_distrib_right, hm, BitVec.or_zero]
  simp only [recoverPair, hmask 0xF0#8 h rfl, hmask 0xF0#8 l rfl, hmask RS_BIT h rfl, hmask BL_BIT h rfl]

/-- A receiver recovers each transfer with its flag (R43). -/
theorem recover_latched_flatMap (cfg : Config) (xs : List (ControllerByte × Bool)) :
    recover (latched (xs.flatMap fun x => transferEvents cfg x.2 x.1)) = xs := by
  induction xs with
  | nil => rfl
  | cons x xs ih =>
    rw [List.flatMap_cons, latched_append, latched_transferEvents, List.cons_append, List.cons_append,
      List.nil_append, recover, ih, recoverPair_or_EN_BIT, recoverPair_frames]

/-- Settles O54, by induction on the transfers. -/
theorem receiverRecoversTheTransfers : Obligations.ReceiverRecoversTheTransfers := recover_latched_flatMap

theorem recover_latched_transfersEvents (cfg : Config) (bl : Bool) (bs : List ControllerByte) :
    recover (latched (transfersEvents cfg bl bs)) = bs.map (·, bl) := by
  rw [transfersEvents_eq_flatMap, recover_latched_flatMap]

theorem enableRises_flatMap (cfg : Config) (xs : List (ControllerByte × Bool)) :
    enableRises false (xs.flatMap fun x => transferEvents cfg x.2 x.1) =
      latched (xs.flatMap fun x => transferEvents cfg x.2 x.1) := by
  induction xs with
  | nil => rfl
  | cons x xs ih => rw [List.flatMap_cons, enableRises_transferEvents_append, latched_append, ih]

/-- Settles O55: the trace is a list of transfers, each of which begins and ends with the enable line low. -/
theorem enableRisesAtEveryLatchedByte : Obligations.EnableRisesAtEveryLatchedByte := by
  rintro s ⟨xs, hxs⟩
  rw [hxs]
  exact ⟨enableRises_flatMap s.cfg xs, fun _ => readWrite_of_mem_writtenBytes⟩

/-- The labels a receiver gives are those of the command bytes sent. -/
theorem commandLabels_transfersEvents (cfg : Config) (bl : Bool) (bs : List ControllerByte) :
    commandLabels (transfersEvents cfg bl bs) =
      (bs.filter fun b => b.mode == .command).map fun b => classifyCommand b.value := by
  rw [commandLabels, recover_latched_transfersEvents]
  induction bs with
  | nil => rfl
  | cons b bs ih =>
    obtain ⟨v, m⟩ := b
    cases m <;> simp_all

/-! ## Counts and the waiting time -/

theorem transfersEvents_length (cfg : Config) (bl : Bool) (bs : List ControllerByte) :
    (transfersEvents cfg bl bs).length = 12 * bs.length := by
  induction bs with
  | nil => rfl
  | cons b bs ih =>
    have hone : (transferEvents cfg bl b).length = 12 := rfl
    rw [transfersEvents_cons, List.length_append, ih, hone, List.length_cons]
    omega

theorem busWriteCount_transfersEvents (cfg : Config) (bl : Bool) (bs : List ControllerByte) :
    busWriteCount (transfersEvents cfg bl bs) = 6 * bs.length := by
  unfold busWriteCount
  induction bs with
  | nil => rfl
  | cons b bs ih =>
    have hone : (writtenBytes (transferEvents cfg bl b)).length = 6 := rfl
    rw [transfersEvents_cons, writtenBytes_append, List.length_append, ih, hone, List.length_cons]
    omega

theorem delayTimes_transfersEvents (cfg : Config) (bl : Bool) (bs : List ControllerByte) :
    delayTimes (transfersEvents cfg bl bs) = List.replicate (6 * bs.length) cfg.strobeDelayUs := by
  induction bs with
  | nil => rfl
  | cons b bs ih =>
    have hone : delayTimes (transferEvents cfg bl b) = List.replicate 6 cfg.strobeDelayUs := rfl
    rw [transfersEvents_cons, delayTimes_append, ih, hone, List.replicate_append_replicate, List.length_cons,
      Nat.mul_succ, Nat.add_comm]

/-- Every event of a transfer is the core's own kind. -/
theorem own_of_mem_transfersEvents {cfg : Config} {bl : Bool} {bs : List ControllerByte} {e : Event}
    (h : e ∈ transfersEvents cfg bl bs) : e.own cfg = true := by
  obtain ⟨b, -, hb⟩ := List.mem_flatMap.mp h
  have hall : (transferEvents cfg bl b).all (Event.own cfg) = true := by
    simp [transferEvents, nibbleEvents, Event.own]
  exact List.all_eq_true.mp hall e hb

end Sys2Proof.Machine

/-! PROOFS. The host operations (spec/30_encoding.md R61, spec/42_init.md R95, R96): when each is accepted, refused or
held back, what it then emits, and what an observer sees of it. -/

namespace Sys2Proof.Machine

/-! ## Admission -/

/-- What an accepted operation leaves when nothing was in progress: its own transfers are all of `SEQ`. -/
theorem State.accepted_of_seq_nil {s : State} (h : s.seq = []) (i : Instr) :
    s.accepted i = { s with
      bl := backlightAfter s.bl i
      ist := if i = .init then .initializing else s.ist
      seq := transfersEvents s.cfg (backlightAfter s.bl i) (transfersOf s.cfg i) } := by
  rw [State.accepted, h, List.nil_append]

theorem exec_init_of_acceptsInit {s : State} (h : s.AcceptsInit) : exec .init s = .next (s.accepted .init) := by
  rw [exec_init, s.presentInit_accepted (s.idle_iff.mpr h)]

theorem exec_gated_of_accepts {s : State} {i : Instr} (hhost : i.isHostOp = true) (hinit : i ≠ .init)
    (h : s.Accepts) : exec i s = .next (s.accepted i) := by
  rw [exec_gated s hhost hinit, State.present_of_accepts h]

/-- What presenting a host operation can answer: it is accepted, or it is held back. -/
theorem exec_hostOp_next {s t : State} {i : Instr} (hhost : i.isHostOp = true) (h : exec i s = .next t) :
    (s.idle = true ∧ t = s.accepted i) ∨ (s.idle = false ∧ t = s.holdBack i) := by
  by_cases hinit : i = .init
  · subst hinit
    rw [exec_init] at h
    exact s.presentInit_next h
  · rw [exec_gated s hhost hinit] at h
    exact (s.present_next h).imp_left fun ⟨hidle, _, ht⟩ => ⟨hidle, ht⟩

/-- A host operation that answers in a core at rest has been accepted. -/
theorem eq_accepted_of_exec_next {s t : State} {i : Instr} (hhost : i.isHostOp = true) (hseq : s.seq = [])
    (hist : s.ist ≠ .initializing) (h : exec i s = .next t) : t = s.accepted i := by
  obtain ⟨-, ht⟩ | ⟨hbusy, -⟩ := exec_hostOp_next hhost h
  · exact ht
  · simp [s.idle_iff.mpr ⟨hseq, hist⟩] at hbusy

/-- The events of a host operation that answers in a core at rest. -/
theorem seq_of_exec_next {s t : State} {i : Instr} (hhost : i.isHostOp = true) (hseq : s.seq = [])
    (hist : s.ist ≠ .initializing) (h : exec i s = .next t) :
    t.seq = transfersEvents s.cfg (backlightAfter s.bl i) (transfersOf s.cfg i) := by
  rw [eq_accepted_of_exec_next hhost hseq hist h, State.accepted_of_seq_nil hseq]

/-! ## What each operation emits -/

/-- Settles O51: `init` and the gated operations have the effect `State.accepted`, on an empty `SEQ`. -/
theorem hostOperationsEmitTheirTable : Obligations.HostOperationsEmitTheirTable := by
  rintro s i hhost (⟨rfl, h⟩ | ⟨hinit, h⟩)
  · rw [exec_init_of_acceptsInit h, State.accepted_of_seq_nil h.1]
  · rw [exec_gated_of_accepts hhost hinit h, State.accepted_of_seq_nil h.1]

/-- Settles O32: the eight transfers of `init`, nibble by nibble. -/
theorem initEmitsTheColdStartSequence : Obligations.InitEmitsTheColdStartSequence := fun s h =>
  hostOperationsEmitTheirTable s .init rfl (.inl ⟨rfl, h⟩)

/-- A gated operation that does not write `BL` puts its transfers into `SEQ` and does nothing else. -/
theorem exec_of_accepts {s : State} (h : s.Accepts) {i : Instr} {bs : List ControllerByte} (hhost : i.isHostOp = true)
    (hinit : i ≠ .init) (hbl : ∀ on, i ≠ .setBacklight on) (hbs : transfersOf s.cfg i = bs) :
    exec i s = .next { s with seq := transfersEvents s.cfg s.bl bs } := by
  rw [exec_gated_of_accepts hhost hinit h, s.accepted_eq_emit i hinit hbl, State.emit, h.1, List.nil_append, hbs]

/-- The same for an operation that sends one byte. -/
theorem exec_of_accepts_singleton {s : State} (h : s.Accepts) {i : Instr} {b : ControllerByte}
    (hhost : i.isHostOp = true) (hinit : i ≠ .init) (hbl : ∀ on, i ≠ .setBacklight on)
    (hb : transfersOf s.cfg i = [b]) : exec i s = .next { s with seq := transferEvents s.cfg s.bl b } := by
  rw [exec_of_accepts h hhost hinit hbl hb, transfersEvents_singleton]

/-- Settles O33: the one transfer of `clear`, nibble by nibble. -/
theorem clearSendsOneCommand : Obligations.ClearSendsOneCommand := fun _ h =>
  exec_of_accepts_singleton h (i := .clear) rfl nofun nofun rfl

/-- The byte `setCursor` sends for a row that has a base. -/
theorem transfersOf_setCursor {cfg : Config} {row base : Int} (h : rowBase cfg.addrPolicy row = some base)
    (col : Int) : transfersOf cfg (.setCursor row col) = [commandByte (128 + ((base + col) % 128).toNat)] := by
  simp only [transfersOf, h]

theorem rowBase_twoLine (row : Int) : rowBase .twoLine row = some (if row = 0 then 0x00 else 0x40) := by
  unfold rowBase
  split <;> simp_all

/-- Settles O34: every row in question has the base named, and `setCursor` sends base plus column. -/
theorem setCursorSendsTheWrappedAddress : Obligations.SetCursorSendsTheWrappedAddress := by
  intro s row col hs
  have sends {base : Int} (hbase : rowBase s.cfg.addrPolicy row = some base) :=
    exec_of_accepts_singleton hs (i := .setCursor row col) rfl nofun nofun (transfersOf_setCursor hbase col)
  refine ⟨fun hpolicy => sends ?_, fun hpolicy base hrow => sends ?_⟩
  · rw [hpolicy, rowBase_twoLine]
  · rw [hpolicy]
    obtain ⟨rfl, rfl⟩ | ⟨rfl, rfl⟩ | ⟨rfl, rfl⟩ | ⟨rfl, rfl⟩ := hrow <;> rfl

/-- Settles O36: the one transfer of `writeChar`. -/
theorem writeCharSendsTheCharacter : Obligations.WriteCharSendsTheCharacter := fun _ c h =>
  exec_of_accepts_singleton h (i := .writeChar c) rfl nofun nofun rfl

/-- Settles O37: the transfers of `print`, one for each character of the text it sends. -/
theorem printStreamsItsCharacters : Obligations.PrintStreamsItsCharacters := fun _ text h =>
  exec_of_accepts h (i := .print text) rfl nofun nofun rfl

/-- Settles O39: the transfers of `print` are those of its characters, each as `writeChar` sends it. -/
theorem printIsWriteCharForEach : Obligations.PrintIsWriteCharForEach := by
  intro s text h
  simp only [printStreamsItsCharacters s text h, writeCharSendsTheCharacter s _ h, eventsOf, transfersEvents,
    List.flatMap_map, characterByte]

/-- Settles O40: the one transfer of `setCursorVisibility`. -/
theorem setCursorVisibilitySendsTheFlags : Obligations.SetCursorVisibilitySendsTheFlags := fun _ visible blink h =>
  exec_of_accepts_singleton h (i := .setCursorVisibility visible blink) rfl nofun nofun rfl

/-- Settles O41: the nine transfers of `createChar` for a slot there is. -/
theorem createCharSendsAddressAndRows : Obligations.CreateCharSendsAddressAndRows := fun _ location p h h0 h8 =>
  exec_of_accepts h (i := .createChar location p) rfl nofun nofun (if_pos ⟨h0, h8⟩)

/-- Settles O43: `setBacklight` sends its literal under the flag it has just written. -/
theorem setBacklightWritesTheFlagFirst : Obligations.SetBacklightWritesTheFlagFirst := by
  intro s on h
  rw [hostOperationsEmitTheirTable s (.setBacklight on) rfl (.inr ⟨nofun, h⟩)]
  cases on <;> rfl

/-- Settles O44: the state after the first call, its events performed, accepts the second, which writes the same. -/
theorem setBacklightTwiceIsTheSame : Obligations.SetBacklightTwiceIsTheSame := by
  intro s on h
  refine ⟨_, setBacklightWritesTheFlagFirst s on h, setBacklightWritesTheFlagFirst _ on ⟨rfl, h.2⟩, fun v hv => ?_⟩
  rw [← transfersEvents_singleton] at hv
  exact backlight_of_mem_writtenBytes hv

/-! ## What an observer sees of an operation -/

/-- Settles O45: only `setBacklight` changes the flag the transfers are sent under. -/
theorem laterTrafficCarriesTheBacklight : Obligations.LaterTrafficCarriesTheBacklight := by
  intro s t i hhost hseq hist hbl h
  have hafter := backlightAfter_of_ne s.bl hbl
  have ht := eq_accepted_of_exec_next hhost hseq hist h
  refine ⟨by rw [ht, State.accepted, hafter], fun v hv => ?_⟩
  rw [seq_of_exec_next hhost hseq hist h, hafter] at hv
  exact backlight_of_mem_writtenBytes hv

/-- A row has no base exactly where the argument check of `setCursor` fails. -/
theorem rowBase_eq_none_iff (cfg : Config) (row col : Int) :
    rowBase cfg.addrPolicy row = none ↔ argumentRejected cfg (.setCursor row col) = true := by
  cases hpolicy : cfg.addrPolicy with
  | twoLine => simp [rowBase_twoLine, argumentRejected, hpolicy]
  | fourLine =>
    unfold rowBase
    split <;> simp_all [argumentRejected]
    omega

/-- The cost table counts the transfers of the table of bytes. -/
theorem transfersOf_length (cfg : Config) {i : Instr} (h : i.isHostOp = true) :
    (transfersOf cfg i).length = hostCost (argumentRejected cfg i) i := by
  cases i with
  | setCursor row col =>
    cases hbase : rowBase cfg.addrPolicy row with
    | none => simp [transfersOf, hostCost, hbase, (rowBase_eq_none_iff cfg row col).mp hbase]
    | some base =>
      have hcheck := (rowBase_eq_none_iff cfg row col).not.mp (by simp [hbase])
      simp [transfersOf, hostCost, hbase, hcheck]
  | createChar location p =>
    by_cases hslot : 0 ≤ location ∧ location < 8
    · have hcheck : ¬(location < 0 ∨ 8 ≤ location) := by omega
      simp [transfersOf, hostCost, argumentRejected, hslot, hcheck, Glyph.rows]
    · have hcheck : location < 0 ∨ 8 ≤ location := by omega
      simp [transfersOf, hostCost, argumentRejected, hslot, hcheck]
  | print text => simp [transfersOf, hostCost, Nat.min_comm]
  | init | clear | writeChar | setCursorVisibility | setBacklight => rfl
  | _ => cases h

/-- Settles O52: the counts of a list of transfers, and their number by the cost table. -/
theorem hostOperationsCost : Obligations.HostOperationsCost := by
  intro s t i hhost hseq hist h
  rw [seq_of_exec_next hhost hseq hist h, ← transfersOf_length s.cfg hhost, delayCount, waitingTime,
    delayTimes_transfersEvents]
  exact ⟨transfersEvents_length .., busWriteCount_transfersEvents .., List.length_replicate, List.sum_replicate_nat ..⟩

/-- The command bytes without an address in the list of spec/30_encoding.md R68. -/
def listedPlainBytes : List Byte :=
  [0x00#8, 0x01#8, 0x02#8, 0x03#8, 0x06#8, 0x08#8, 0x0C#8, 0x0D#8, 0x0E#8, 0x0F#8, 0x2C#8]

/-- The command bytes of that list: those without an address, the glyph addresses and the display addresses. -/
def ListedCommandByte (v : Byte) : Prop :=
  v ∈ listedPlainBytes ∨ (∃ k < 8, v = BitVec.ofNat 8 (0x40 + 8 * k)) ∨ v ≥ 0x80#8

/-- The command bytes in the table of the host operations are listed; character bytes are not commands. -/
theorem listed_of_mem_transfersOf (cfg : Config) {i : Instr} (hhost : i.isHostOp = true) {b : ControllerByte}
    (hb : b ∈ transfersOf cfg i) (hmode : b.mode = .command) : ListedCommandByte b.value := by
  cases i with
  | init =>
    have hall : ∀ x ∈ transfersOf cfg .init, x.value ∈ listedPlainBytes := by
      simp only [transfersOf]
      decide
    exact .inl (hall b hb)
  | clear =>
    obtain rfl := List.mem_singleton.mp hb
    exact .inl (by decide)
  | setCursor row col =>
    cases hbase : rowBase cfg.addrPolicy row with
    | none => simp [transfersOf, hbase] at hb
    | some base =>
      rw [transfersOf_setCursor hbase] at hb
      obtain rfl := List.mem_singleton.mp hb
      refine .inr (.inr ?_)
      have hmod : ((base + col) % 128).toNat < 128 := by omega
      rw [ge_iff_le, BitVec.le_def, commandByte, BitVec.toNat_ofNat]
      simp only [BitVec.toNat_ofNat]
      omega
  | writeChar c =>
    obtain rfl := List.mem_singleton.mp hb
    cases hmode
  | print text =>
    obtain ⟨c, -, rfl⟩ := List.mem_map.mp hb
    cases hmode
  | setCursorVisibility visible blink =>
    obtain rfl := List.mem_singleton.mp hb
    left
    cases visible <;> cases blink <;> decide
  | createChar location p =>
    simp only [transfersOf] at hb
    split at hb
    · rcases List.mem_cons.mp hb with rfl | hb
      · exact .inr (.inl ⟨location.toNat, by omega, rfl⟩)
      · obtain ⟨c, -, rfl⟩ := List.mem_map.mp hb
        cases hmode
    · cases hb
  | setBacklight on =>
    obtain rfl := List.mem_singleton.mp hb
    left
    cases on <;> decide
  | _ => cases hhost

/-- Settles O53: a receiver recovers the transfers of the table, whose command bytes are listed. -/
theorem onlyListedCommandBytesAreEmitted : Obligations.OnlyListedCommandBytesAreEmitted := by
  intro s t i hhost hseq hist h x hx hmode
  rw [seq_of_exec_next hhost hseq hist h, recover_latched_transfersEvents] at hx
  obtain ⟨b, hb, rfl⟩ := List.mem_map.mp hx
  exact listed_of_mem_transfersOf s.cfg hhost hb hmode

/-- Only 0x10 to 0x1F are labelled a shift, and none of them is listed. -/
theorem classifyCommand_ne_shift_of_listed {v : Byte} (h : ListedCommandByte v) : classifyCommand v ≠ .shift := by
  obtain h | ⟨k, hk, rfl⟩ | h := h
  · revert v
    decide
  · revert k
    decide
  · revert v
    decide

/-- Settles O57: a receiver labels the transfers of the table, whose command bytes are listed. -/
theorem hostOperationsAreLabelledByTheirTable : Obligations.HostOperationsAreLabelledByTheirTable := by
  intro s t i hhost hseq hist h
  rw [seq_of_exec_next hhost hseq hist h, commandLabels_transfersEvents]
  refine ⟨rfl, fun hshift => ?_⟩
  obtain ⟨b, hb, hlabel⟩ := List.mem_map.mp hshift
  obtain ⟨hmem, hmode⟩ := List.mem_filter.mp hb
  exact classifyCommand_ne_shift_of_listed (listed_of_mem_transfersOf s.cfg hhost hmem (by simpa using hmode)) hlabel

/-! ## Refused, before `init`, and held back -/

theorem State.admits_eq_false_iff (s : State) :
    s.admits = false ↔ s.ist = .uninitialized ∧ s.cfg.uninitPolicy = .refuse := by
  cases hp : s.cfg.uninitPolicy <;> simp [State.admits, hp]

/-- Settles O46: before `init` the refusing policy lets no idle core accept, whatever the operation and its arguments. -/
theorem gatedOperationsAreRefusedBeforeInit : Obligations.GatedOperationsAreRefusedBeforeInit := by
  intro s i hhost hinit hseq hist hpolicy
  have hidle : s.idle = true := s.idle_iff.mpr ⟨hseq, by simp [hist]⟩
  have hadmits : s.admits = false := s.admits_eq_false_iff.mpr ⟨hist, hpolicy⟩
  simp [exec_gated s hhost hinit, State.present, hidle, hadmits]

/-- Settles O47: both states accept, and `State.accepted` reads `IST` nowhere but to keep it. -/
theorem emitPolicyActsAsReady : Obligations.EmitPolicyActsAsReady := by
  intro s i hhost hinit hseq hist hpolicy
  refine ⟨_, exec_gated_of_accepts hhost hinit ⟨hseq, .inl rfl⟩, ?_⟩
  rw [exec_gated_of_accepts hhost hinit ⟨hseq, .inr ⟨hist, hpolicy⟩⟩]
  simp [State.accepted, hinit, hist]

/-- A busy core holds every host operation back. -/
theorem exec_hostOp_of_not_idle {s : State} {i : Instr} (hhost : i.isHostOp = true) (h : s.idle = false) :
    exec i s = .next (s.holdBack i) := by
  by_cases hinit : i = .init
  · subst hinit
    simp [exec_init, State.presentInit, h]
  · simp [exec_gated s hhost hinit, State.present, h]

theorem State.idle_eq_false_iff (s : State) : s.idle = false ↔ s.seq ≠ [] ∨ s.ist = .initializing := by
  rw [← Bool.not_eq_true, s.idle_iff]
  tauto

/-- Settles O48: a busy core holds the operation back. -/
theorem hostOperationsWaitWhileBusy : Obligations.HostOperationsWaitWhileBusy := fun s _ hhost hbusy =>
  exec_hostOp_of_not_idle hhost (s.idle_eq_false_iff.mpr hbusy)

/-- Settles O49: an accepted operation writes `BL`, `IST` and `SEQ` alone, one held back only the requests. -/
theorem hostOperationsFrame : Obligations.HostOperationsFrame := by
  intro s t i hhost h
  obtain ⟨hidle, rfl⟩ | ⟨hbusy, rfl⟩ := exec_hostOp_next hhost h
  · refine ⟨rfl, rfl, rfl, rfl, rfl, backlightAfter_of_ne s.bl, fun hinit => if_neg hinit, fun _ => rfl,
      fun hbusy => ?_⟩
    exact absurd (s.idle_iff.mp hidle) hbusy
  · refine ⟨rfl, rfl, rfl, rfl, rfl, fun _ => rfl, fun _ => rfl, fun hrest => ?_, fun _ => ⟨rfl, rfl, rfl⟩⟩
    exact absurd (s.idle_iff.mpr hrest) (by simp [hbusy])

end Sys2Proof.Machine

/-! PROOFS. The step (spec/10_state.md R14): what any instruction and any step can do, said once, and from it the
invariants (spec/41_enable_strobe.md R83, spec/42_init.md R90, R96), the refusals and the runs. -/

namespace Sys2Proof.Machine

/-! ## The rows that are no host operations -/

/-- What a row that is no host operation does: it appends own events or it answers, and never both. -/
def InternalFrame (s : State) (i : Instr) : Prop :=
  ∃ xs r, exec i s = .next { s with seq := s.seq ++ xs, result := r } ∧
    (if i.row ∈ [Row.encode, .ddramAddr, .cgramAddr] then xs = [] else r = s.result) ∧
    ∀ e ∈ xs, e.own s.cfg = true

section

variable {s : State} {i : Instr}

theorem internalFrame_of_answer {r : PrimResult} (h : exec i s = .next (s.answer r))
    (hrow : i.row ∈ [Row.encode, .ddramAddr, .cgramAddr]) : InternalFrame s i :=
  ⟨[], r, by rw [h, List.append_nil]; rfl, by rw [if_pos hrow], nofun⟩

theorem internalFrame_of_emit {xs : List Event} (h : exec i s = .next (s.emit xs))
    (hrow : i.row ∉ [Row.encode, .ddramAddr, .cgramAddr]) (hown : ∀ e ∈ xs, e.own s.cfg = true) : InternalFrame s i :=
  ⟨xs, s.result, h, by rw [if_neg hrow], hown⟩

theorem internalFrame_of_sendByte {v : Byte} {m : Mode} (h : exec i s = .next (s.sendByte v m))
    (hrow : i.row ∉ [Row.encode, .ddramAddr, .cgramAddr]) : InternalFrame s i := by
  rw [State.sendByte_eq_emit, ← transfersEvents_singleton] at h
  exact internalFrame_of_emit h hrow fun _ => own_of_mem_transfersEvents

end

theorem own_of_mem_strobeEvents {cfg : Config} {f : Byte} {e : Event} (h : e ∈ strobeEvents cfg f) :
    e.own cfg = true := by
  have hall : (strobeEvents cfg f).all (Event.own cfg) = true := by
    simp [strobeEvents, busWrite, delay, Event.own]
  exact List.all_eq_true.mp hall e h

/-- Settles O50: the pure primitives answer, STROBE and FRAME emit, and all the others are one SENDBYTE. -/
theorem internalRowsFrame : Obligations.InternalRowsFrame := by
  intro s i hinternal
  cases i with
  | encode v m b => exact internalFrame_of_answer (exec_encode s v m b) (by simp [Instr.row])
  | ddramAddr policy row col => exact internalFrame_of_answer (exec_ddramAddr s policy row col) (by simp [Instr.row])
  | cgramAddr location => exact internalFrame_of_answer (exec_cgramAddr s location) (by simp [Instr.row])
  | strobe f => exact internalFrame_of_emit (exec_strobe s f) (by simp [Instr.row]) fun _ => own_of_mem_strobeEvents
  | frame v =>
    have hexec : exec (.frame v) s = .next (s.emit [busWrite s.cfg v]) := rfl
    exact internalFrame_of_emit hexec (by simp [Instr.row]) (by simp [busWrite, Event.own])
  | sendByte | clearDisplay | returnHome | entryModeSet | displayControl | functionSet | setCgramAddr | setDdramAddr
  | litResync | lit4Bit | litBacklight | charData => exact internalFrame_of_sendByte rfl (by simp [Instr.row])
  | _ => cases hinternal

/-! ## What an instruction and a step can do -/

/-- What presenting an instruction that is no host operation answers. -/
theorem exec_internal_next {s t : State} {i : Instr} (hinternal : i.isHostOp = false) (h : exec i s = .next t) :
    ∃ xs r, t = { s with seq := s.seq ++ xs, result := r } ∧ ∀ e ∈ xs, e.own s.cfg = true := by
  obtain ⟨xs, r, hexec, -, hown⟩ := internalRowsFrame s i hinternal
  exact ⟨xs, r, by simpa using h.symm.trans hexec, hown⟩

/-- Where a step can lead. -/
inductive StepTo (s : State) : State → Prop where
  /-- nothing happens -/
  | unchanged : StepTo s s
  /-- the head event is performed -/
  | performed (e : Event) (rest : List Event) (ws : List WriteReply) (ds : List DelayReply) (hseq : s.seq = e :: rest) :
    StepTo s { s.complete e rest with writeReplies := ws, delayReplies := ds }
  /-- a host operation is accepted -/
  | accepted (i : Instr) (rest : List Instr) (hseq : s.seq = []) (hreq : s.requests = i :: rest)
      (hhost : i.isHostOp = true) (hist : s.ist ≠ .initializing) :
    StepTo s (State.accepted { s with requests := rest } i)
  /-- another row is run -/
  | ran (i : Instr) (rest : List Instr) (xs : List Event) (r : PrimResult) (hseq : s.seq = [])
      (hreq : s.requests = i :: rest) (hinternal : i.isHostOp = false) (hown : ∀ e ∈ xs, e.own s.cfg = true) :
    StepTo s { s with seq := xs, requests := rest, result := r }

/-- Every step leads there. An operation held back goes back to the requests it was taken from, so that nothing
happens. -/
theorem step_to {s t : State} (h : step s = .next t) : StepTo s t := by
  obtain ⟨e, rest, hseq, rfl⟩ | ⟨-, -, rfl⟩ | ⟨hseq, i, rest, hreq, -, hexec⟩ := step_next h
  · obtain hhung | ⟨ws, ds, hdone⟩ := s.perform_cases e rest
    · rw [hhung]
      exact .unchanged
    · rw [hdone]
      exact .performed e rest ws ds hseq
  · exact .unchanged
  · cases hhost : i.isHostOp with
    | true =>
      obtain ⟨hidle, rfl⟩ | ⟨-, rfl⟩ := exec_hostOp_next hhost hexec
      · exact .accepted i rest hseq hreq hhost ((State.idle_iff _).mp hidle).2
      · rw [State.holdBack, ← hreq]
        exact .unchanged
    | false =>
      obtain ⟨xs, r, rfl, hown⟩ := exec_internal_next hhost hexec
      rw [hseq, List.nil_append]
      exact .ran i rest xs r hseq hreq hhost hown

/-- The next request is run when nothing is in progress (spec/10_state.md R14). -/
theorem step_of_request {s : State} {i : Instr} {rest : List Instr} (hseq : s.seq = []) (hreq : s.requests = i :: rest)
    (hwf : i.wellFormed = true) : step s = exec i { s with requests := rest } := by
  simp [step, State.takeRequest, hseq, hreq, hwf]

/-- Settles O6. -/
theorem stepRunsTheNextRequest : Obligations.StepRunsTheNextRequest := fun _ _ _ => step_of_request

/-! ## Fields a step keeps, and how it changes the others -/

/-- Settles O15: no case of a step writes `CFG`. -/
theorem configurationNeverChanges : Obligations.ConfigurationNeverChanges := by
  intro s t h
  cases step_to h <;> rfl

/-- Settles O18: only the case of an event performed writes the trace. -/
theorem traceOnlyGrowsByTheHeadEvent : Obligations.TraceOnlyGrowsByTheHeadEvent := by
  intro s t h
  cases step_to h with
  | performed e rest ws ds hseq => exact .inr ⟨e, rest, hseq, rfl, rfl⟩
  | unchanged | accepted | ran => exact .inl rfl

/-- `IST` after an event: only the last event of an `init` changes it (spec/42_init.md R90). -/
theorem State.complete_ist (s : State) (e : Event) (rest : List Event) :
    (s.complete e rest).ist = if s.ist = .initializing ∧ rest = [] then .ready else s.ist := by
  simp [State.complete, and_comm]

/-- Settles O19: of the cases of a step only an `init` accepted and its last event performed write `IST`. -/
theorem initialisationMovesOnlyForward : Obligations.InitialisationMovesOnlyForward := by
  intro s t h hne
  cases step_to h with
  | performed e rest ws ds hseq =>
    have hist : (s.complete e rest).ist ≠ s.ist := hne
    rw [State.complete_ist] at hist
    obtain ⟨hinit, rfl⟩ : s.ist = .initializing ∧ rest = [] := by
      by_contra hnot
      exact hist (if_neg hnot)
    exact .inr ⟨hinit, (s.complete_ist e []).trans (if_pos ⟨hinit, rfl⟩), e, hseq⟩
  | accepted i rest hseq hreq hhost hist =>
    by_cases hinit : i = .init
    · subst hinit
      exact .inl ⟨hist, rfl, hseq, rest, hreq⟩
    · exact absurd (if_neg hinit) hne
  | unchanged | ran => exact absurd rfl hne

/-- Settles O20: of the cases of a step only a `setBacklight` accepted writes `BL`. -/
theorem onlySetBacklightWritesTheFlag : Obligations.OnlySetBacklightWritesTheFlag := by
  intro s t h hne
  cases step_to h with
  | accepted i rest hseq hreq =>
    by_cases hbl : ∃ on, i = .setBacklight on
    · obtain ⟨on, rfl⟩ := hbl
      exact ⟨hseq, rest, hreq⟩
    · exact absurd (backlightAfter_of_ne s.bl (not_exists.mp hbl)) hne
  | unchanged | performed | ran => exact absurd rfl hne

/-! ## Invariants -/

/-- Settles O14: at construction nothing is in progress and nothing has happened. -/
theorem constructionLeavesTheResetValues : Obligations.ConstructionLeavesTheResetValues := fun _ =>
  ⟨rfl, rfl, rfl, rfl, rfl, ⟨nofun, nofun, [], rfl⟩, nofun⟩

/-- An accepted `init` has events to perform. -/
theorem State.accepted_initInProgress {s : State} (hist : s.ist ≠ .initializing) (i : Instr) :
    (s.accepted i).InitInProgress := by
  intro hinit
  by_cases hi : i = .init
  · subst hi
    exact List.append_ne_nil_of_right_ne_nil _ nofun
  · exact absurd ((if_neg hi).symm.trans hinit) hist

/-- `Initializing` is left with the last event (spec/42_init.md R96). -/
theorem State.complete_initInProgress (s : State) (e : Event) (rest : List Event) :
    (s.complete e rest).InitInProgress := by
  rw [State.InitInProgress, State.complete_ist, State.complete_seq]
  rintro hist rfl
  split at hist
  · cases hist
  · rename_i hlast
    exact hlast ⟨hist, rfl⟩

/-- Every step keeps `SEQ` non-empty during an `init`. -/
theorem step_initInProgress {s t : State} (hs : s.InitInProgress) (h : step s = .next t) : t.InitInProgress := by
  cases step_to h with
  | unchanged => exact hs
  | performed e rest => exact s.complete_initInProgress e rest
  | accepted i rest hseq hreq hhost hist => exact State.accepted_initInProgress hist i
  | ran i rest xs r hseq => exact fun hist => absurd hseq (hs hist)

/-- Performing an event moves it from `SEQ` to the trace. -/
theorem State.complete_trace_append_seq (s : State) {e : Event} {rest : List Event} (h : s.seq = e :: rest) :
    (s.complete e rest).trace ++ (s.complete e rest).seq = s.trace ++ s.seq := by
  simp [h]

theorem State.accepted_trace_append_seq (s : State) (i : Instr) :
    (s.accepted i).trace ++ (s.accepted i).seq =
      s.trace ++ s.seq ++ transfersEvents s.cfg (backlightAfter s.bl i) (transfersOf s.cfg i) :=
  (List.append_assoc ..).symm

/-- Appending own events to own events. -/
theorem own_append {cfg : Config} {xs ys : List Event} (hxs : ∀ e ∈ xs, e.own cfg = true)
    (hys : ∀ e ∈ ys, e.own cfg = true) : ∀ e ∈ xs ++ ys, e.own cfg = true := fun e he =>
  (List.mem_append.mp he).elim (hxs e) (hys e)

theorem State.accepted_ownEvents {s : State} (hs : s.OwnEvents) (i : Instr) : (s.accepted i).OwnEvents := by
  rw [State.OwnEvents, State.accepted_trace_append_seq]
  exact own_append hs fun _ => own_of_mem_transfersEvents

/-- Settles O17: an event performed stays in the trace, and whatever is accepted or run adds own events alone. -/
theorem everyStepKeepsEventsOwn : Obligations.EveryStepKeepsEventsOwn := by
  intro s t hinit hown h
  refine ⟨step_initInProgress hinit h, ?_⟩
  cases step_to h with
  | unchanged => exact hown
  | performed e rest ws ds hseq =>
    rw [State.OwnEvents, ← s.complete_trace_append_seq hseq] at hown
    exact hown
  | accepted i rest => exact State.accepted_ownEvents (s := { s with requests := rest }) hown i
  | ran i rest xs r hseq hreq hinternal hxs =>
    rw [State.OwnEvents, hseq, List.append_nil] at hown
    exact own_append hown hxs

theorem State.accepted_framed {s : State} (hs : s.Framed) (i : Instr) : (s.accepted i).Framed := by
  obtain ⟨xs, hxs⟩ := hs
  refine ⟨xs ++ (transfersOf s.cfg i).map (·, backlightAfter s.bl i), ?_⟩
  rw [State.accepted_trace_append_seq, hxs, transfersEvents_eq_flatMap, List.flatMap_append]
  rfl

/-- Settles O16: an event performed stays in the trace, an operation accepted adds whole transfers, and nothing else
is presented. -/
theorem everyStepKeepsByteTransfersWhole : Obligations.EveryStepKeepsByteTransfersWhole := by
  intro s t ⟨hhost, hinit, hframed⟩ h
  have hinit' := step_initInProgress hinit h
  cases step_to h with
  | unchanged => exact ⟨hhost, hinit, hframed⟩
  | performed e rest ws ds hseq =>
    obtain ⟨ys, hys⟩ := hframed
    exact ⟨hhost, hinit', ys, (s.complete_trace_append_seq hseq).trans hys⟩
  | accepted i rest hseq hreq =>
    have hrest : ∀ j ∈ rest, j.isHostOp = true := fun j hj => hhost j (hreq ▸ List.mem_cons_of_mem i hj)
    exact ⟨hrest, hinit', State.accepted_framed (s := { s with requests := rest }) hframed i⟩
  | ran i rest xs r hseq hreq hinternal =>
    have hi : i.isHostOp = true := hhost i (hreq ▸ List.mem_cons_self)
    simp [hinternal] at hi

/-! ## Refusals -/

/-- Only FRAME has an operand that can be ill formed (spec/30_encoding.md R47). -/
theorem Instr.eq_frame_of_not_wellFormed {i : Instr} (h : i.wellFormed = false) :
    ∃ v, i = .frame v ∧ v &&& RW_BIT ≠ 0x00#8 := by
  cases i with
  | frame v => exact ⟨v, rfl, by simpa [Instr.wellFormed] using h⟩
  | _ => cases h

/-- Only a gated operation before `init` is refused by its meaning. -/
theorem exec_refused {s : State} {i : Instr} {r : Refusal} (h : exec i s = .refused r) :
    i.isHostOp = true ∧ i ≠ .init ∧ s.admits = false ∧ r = .beforeInit := by
  have hhost : i.isHostOp = true := by
    by_contra hinternal
    obtain ⟨xs, r', hnext, -⟩ := internalRowsFrame s i (by simpa using hinternal)
    cases hnext.symm.trans h
  have hinit : i ≠ .init := by
    rintro rfl
    rw [exec_init, State.presentInit] at h
    split at h <;> cases h
  rw [exec_gated s hhost hinit] at h
  obtain ⟨-, hadmits, hr⟩ := s.present_refused h
  exact ⟨hhost, hinit, hadmits, hr⟩

/-- Settles O13: a request is ill formed, or its meaning refuses it. -/
theorem refusalsAreOnlyThese : Obligations.RefusalsAreOnlyThese := by
  intro s r h
  obtain ⟨hseq, i, rest, hreq, ⟨hill, hr⟩ | ⟨-, hexec⟩⟩ := step_refused h
  · exact ⟨hseq, i, rest, hreq, .inr ⟨hr, Instr.eq_frame_of_not_wellFormed hill⟩⟩
  · obtain ⟨hhost, hinit, hadmits, hr⟩ := exec_refused hexec
    obtain ⟨hist, hpolicy⟩ := (State.admits_eq_false_iff _).mp hadmits
    exact ⟨hseq, i, rest, hreq, .inl ⟨hr, hhost, hinit, hist, hpolicy⟩⟩

/-! ## Calls that never return -/

/-- A core that a step leaves as it is stays so for ever. -/
theorem runSteps_of_fixed {s : State} (h : step s = .next s) (n : Nat) : runSteps n s = .next s := by
  induction n with
  | zero => rfl
  | succ n ih => rw [runSteps_of_next h, ih]

/-- Settles O9: a step with a hung write at the head changes nothing. -/
theorem hungWriteBlocksForEver : Obligations.HungWriteBlocksForEver := by
  intro s a v rest replies n hseq hreplies
  refine runSteps_of_fixed ?_ n
  rw [step_of_event hseq, s.perform_hung rest hreplies]

/-- Settles O58: a step with a hung delay at the head changes nothing. -/
theorem hungDelayBlocksForEver : Obligations.HungDelayBlocksForEver := by
  intro s d rest replies n hseq hreplies
  refine runSteps_of_fixed ?_ n
  rw [step_of_event hseq, s.perform_hungDelay rest hreplies]

/-! ## Runs with an environment that answers -/

/-- A delay that returns is performed. -/
theorem State.perform_delay_returned (s : State) (d : Nat) (rest : List Event)
    (h : s.delayReplies.head? ≠ some .never) :
    s.perform (.D d) rest = { s.complete (.D d) rest with delayReplies := s.delayReplies.tail } := by
  simp only [State.perform]
  split
  · simp_all
  · rfl

theorem head?_ne_of_not_mem {α : Type} {a : α} {xs : List α} (h : a ∉ xs) : xs.head? ≠ some a := fun hhead =>
  h (List.mem_of_mem_head? hhead)

/-- With an environment that answers, performing an event completes it and uses up its one answer. -/
theorem State.perform_of_total {s : State} (h : s.Total) (e : Event) (rest : List Event) :
    s.perform e rest = { s.complete e rest with
      writeReplies := s.writeReplies.drop (busWriteCount [e])
      delayReplies := s.delayReplies.drop (delayCount [e]) } := by
  obtain ⟨hwrite, hdelay⟩ := h
  cases e with
  | W a v =>
    rw [s.perform_returned a v rest (head?_ne_of_not_mem hwrite), ← List.drop_one]
    rfl
  | D d =>
    rw [s.perform_delay_returned d rest (head?_ne_of_not_mem hdelay), ← List.drop_one]
    rfl

/-- Settles O8: the head event is completed and uses up one answer of its kind. -/
theorem stepPerformsTheHeadEvent : Obligations.StepPerformsTheHeadEvent := by
  intro s e rest hseq htotal
  refine ⟨_, (step_of_event hseq).trans (congrArg _ (State.perform_of_total htotal e rest)), rfl, rfl,
    s.complete_ist e rest, rfl, rfl, rfl, rfl, ?_⟩
  cases e <;> exact ⟨rfl, rfl⟩

/-- The state in which all events of `SEQ` have been performed. -/
def State.drained (s : State) : State :=
  { s with
    seq := []
    trace := s.trace ++ s.seq
    ist := if s.seq ≠ [] ∧ s.ist = .initializing then .ready else s.ist
    writeReplies := s.writeReplies.drop (busWriteCount s.seq)
    delayReplies := s.delayReplies.drop (delayCount s.seq) }

theorem State.drained_of_seq_nil {s : State} (h : s.seq = []) : s.drained = s := by
  cases s
  cases h
  simp [State.drained, busWriteCount, writtenBytes, delayCount, delayTimes]

theorem busWriteCount_cons (e : Event) (xs : List Event) :
    busWriteCount (e :: xs) = busWriteCount [e] + busWriteCount xs := by
  rw [← List.singleton_append, busWriteCount, writtenBytes_append, List.length_append, busWriteCount, busWriteCount]

theorem delayCount_cons (e : Event) (xs : List Event) : delayCount (e :: xs) = delayCount [e] + delayCount xs := by
  rw [← List.singleton_append, delayCount, delayTimes_append, List.length_append, delayCount, delayCount]

/-- Performing the head event leaves the same events to have been performed in the end. -/
theorem State.drained_perform {s : State} {e : Event} {rest : List Event} (h : s.seq = e :: rest) (htotal : s.Total) :
    (s.perform e rest).drained = s.drained := by
  rw [State.perform_of_total htotal]
  simp only [State.drained, State.complete_ist, State.complete_seq, State.complete_trace, State.complete_cfg,
    State.complete_bl, State.complete_requests, State.complete_result, h, busWriteCount_cons e rest,
    delayCount_cons e rest, List.drop_drop, List.append_assoc, List.singleton_append]
  by_cases hinit : s.ist = .initializing <;> by_cases hrest : rest = [] <;> simp [hinit, hrest]

theorem State.total_perform {s : State} (htotal : s.Total) (e : Event) (rest : List Event) :
    (s.perform e rest).Total := by
  rw [State.perform_of_total htotal]
  exact ⟨fun h => htotal.1 (List.mem_of_mem_drop h), fun h => htotal.2 (List.mem_of_mem_drop h)⟩

theorem State.perform_seq_of_total {s : State} (htotal : s.Total) (e : Event) (rest : List Event) :
    (s.perform e rest).seq = rest := by
  rw [State.perform_of_total htotal, State.complete_seq]

/-- As many steps as there are events perform them all, by induction on the events. -/
theorem runSteps_drained {n : Nat} {s : State} (hn : s.seq.length = n) (htotal : s.Total) :
    runSteps n s = .next s.drained := by
  induction n generalizing s with
  | zero => rw [runSteps_zero, State.drained_of_seq_nil (List.eq_nil_of_length_eq_zero hn)]
  | succ n ih =>
    obtain ⟨e, rest, hseq⟩ := List.exists_cons_of_length_eq_add_one hn
    have hrest : (s.perform e rest).seq.length = n := by
      rw [State.perform_seq_of_total htotal]
      simpa [hseq] using hn
    rw [runSteps_of_next (step_of_event hseq), ih hrest (State.total_perform htotal e rest),
      State.drained_perform hseq htotal]

/-- Settles O10. -/
theorem operationDrainsToItsWholeTrace : Obligations.OperationDrainsToItsWholeTrace := fun _ h =>
  runSteps_drained rfl h

/-- Settles O11: the first step accepts the `init`, the other 96 perform its events. -/
theorem initRunsToReady : Obligations.InitRunsToReady := by
  intro s rest hs htotal hreq
  have hexec := initEmitsTheColdStartSequence { s with requests := rest } hs
  rw [runSteps_of_next ((step_of_request hs.1 hreq rfl).trans hexec) 96]
  exact ⟨_, runSteps_drained (n := 96) rfl htotal, rfl, rfl, rfl, rfl, rfl⟩

end Sys2Proof.Machine

/-! PROOFS. Reading what a row writes (spec/opcode_table.json): the word of an instruction has its row's fixed bits,
and its fields hold the operands. -/

namespace Sys2Proof

open Machine

/-! ## Fields of the words -/

theorem addressField_eq (v : Byte) : addressField v = ((v.toNat % 128 : Nat) : Int) := by
  revert v
  decide

theorem addressField_cursorCommand {col : Int} (h0 : 0 ≤ col) (h128 : col < 128) :
    addressField (cursorCommand col) = col := by
  rw [cursorCommand_eq, addressField_eq, BitVec.toNat_ofNat]
  omega

theorem addressField_low8 {col : Int} (h0 : 0 ≤ col) (h128 : col < 128) : addressField (low8 col) = col := by
  rw [addressField_eq, low8_toNat]
  omega

theorem glyphField_glyphCommand {location : Int} (h0 : 0 ≤ location) (h8 : location < 8) :
    glyphField (glyphCommand (location * 8)) = location := by
  interval_cases location <;> rfl

theorem glyphField_low8 {location : Int} (h0 : 0 ≤ location) (h8 : location < 8) :
    glyphField (low8 (location * 8)) = location := by
  interval_cases location <;> rfl

/-- Row 0 has base 0 under either policy. -/
theorem ddramAddress_row_zero (policy : AddrPolicy) (col : Int) : ddramAddress policy 0 col = some col := by
  cases policy <;> simp [ddramAddress]

/-- A text of at most 31 characters without a terminator is printed whole. -/
theorem printable_eq_self {text : List Byte} (hlen : text.length ≤ PRINT_CAP)
    (hall : text.all (fun c => c != 0x00#8) = true) : printable text = text := by
  rw [printable, List.takeWhile_eq_self_iff.mpr (List.all_eq_true.mp hall), List.take_of_length_le hlen]

/-- The fields of ENCODE's two frames. -/
theorem fields_of_frames (v : Byte) (m : Mode) (b : Bool) :
    highFrame v m b &&& 0x0F#8 = lowFrame v m b &&& 0x0F#8 ∧ valueOfFrames (highFrame v m b) (lowFrame v m b) = v ∧
      modeOfFrame (highFrame v m b) = m ∧ (highFrame v m b).getLsbD 3 = b := by
  cases m <;> cases b <;> revert v <;> decide

theorem getLsbD_two_of_and_four {f : Byte} (h : f &&& 0x04#8 = 0x00#8) : f.getLsbD 2 = false := by
  revert f
  decide

/-! ## Reading what a row writes -/

/-- The word of an instruction has the fixed bits of its row. -/
theorem matches_encode {i : Instr} (h : i.carried = true) (policy : AddrPolicy) (backlight : Bool) :
    i.row.matches (encode policy backlight i) = true := by
  have fixed : Laws.FixedBits.Statement i := by
    cases i with
    | init => exact Laws.FixedBits.init
    | clear => exact Laws.FixedBits.clear
    | setCursor row col => exact Laws.FixedBits.setCursor row col
    | writeChar c => exact Laws.FixedBits.writeChar c
    | print text => exact Laws.FixedBits.print text
    | setCursorVisibility visible blink => exact Laws.FixedBits.setCursorVisibility visible blink
    | createChar location p => exact Laws.FixedBits.createChar location p
    | setBacklight on => exact Laws.FixedBits.setBacklight on
    | encode v m b => exact Laws.FixedBits.encode v m b
    | strobe f => exact Laws.FixedBits.strobe f
    | sendByte v m => exact Laws.FixedBits.sendByte v m
    | ddramAddr policy row col => exact Laws.FixedBits.ddramAddr policy row col
    | cgramAddr location => exact Laws.FixedBits.cgramAddr location
    | clearDisplay => exact Laws.FixedBits.clearDisplay
    | returnHome => exact Laws.FixedBits.returnHome
    | entryModeSet left shift => exact Laws.FixedBits.entryModeSet left shift
    | displayControl display cursor blink => exact Laws.FixedBits.displayControl display cursor blink
    | functionSet eightBit twoLine tallFont => exact Laws.FixedBits.functionSet eightBit twoLine tallFont
    | setCgramAddr addr => exact Laws.FixedBits.setCgramAddr addr
    | setDdramAddr addr => exact Laws.FixedBits.setDdramAddr addr
    | litResync => exact Laws.FixedBits.litResync
    | lit4Bit => exact Laws.FixedBits.lit4Bit
    | litBacklight on => exact Laws.FixedBits.litBacklight on
    | charData c => exact Laws.FixedBits.charData c
    | frame v => exact Laws.FixedBits.frame v
  exact fixed h policy backlight

/-- The operands read from the word of an instruction are those it was written with. -/
theorem operands_encode {i : Instr} (h : i.carried = true) (policy : AddrPolicy) (backlight : Bool) :
    i.row.operands (encode policy backlight i) = some i := by
  cases i with
  | setCursor row col =>
    obtain ⟨rfl, h0, h128⟩ := of_decide_eq_true h
    simp only [encode, Instr.row, ddramAddress_row_zero, Row.operands, addressField_cursorCommand h0 h128]
  | print text =>
    obtain ⟨hlen, hall⟩ := Bool.and_eq_true_iff.mp h
    simp only [encode, Instr.row, Row.operands, printable_eq_self (of_decide_eq_true hlen) hall]
  | createChar location p =>
    obtain ⟨h0, h8⟩ := of_decide_eq_true h
    simp only [encode, Instr.row, cgramAddress_of_slot h0 h8, Glyph.rows, Row.operands, glyphField_glyphCommand h0 h8]
  | encode v m b =>
    obtain ⟨hsame, hvalue, hmode, hbl⟩ := fields_of_frames v m b
    simp only [encode, Instr.row, Row.operands, hsame, hvalue, hmode, hbl, if_true]
  | strobe f =>
    have hf : f &&& 0x04#8 = 0x00#8 := by simpa [Instr.carried] using h
    have hdrop := and_not_EN_BIT_of_clear (getLsbD_two_of_and_four hf)
    rw [encode, hdrop]
    exact if_pos ⟨rfl, rfl⟩
  | sendByte v m =>
    obtain ⟨hsame, hvalue, hmode, -⟩ := fields_of_frames v m backlight
    simp [encode, Instr.row, Row.operands, hsame, hvalue, hmode, EN_BIT]
  | ddramAddr policy' row col =>
    simp only [Instr.carried, Bool.and_eq_true, beq_iff_eq, decide_eq_true_eq] at h
    obtain ⟨rfl, rfl, h0, h128⟩ := h
    simp only [encode, Instr.row, ddramAddress_row_zero, Row.operands, addressField_low8 h0 h128]
  | cgramAddr location =>
    obtain ⟨h0, h8⟩ := of_decide_eq_true h
    simp only [encode, Instr.row, cgramAddress_of_slot h0 h8, Row.operands, glyphField_low8 h0 h8]
  | setCursorVisibility x y | entryModeSet x y => cases x <;> cases y <;> rfl
  | displayControl x y z | functionSet x y z => cases x <;> cases y <;> cases z <;> rfl
  | setBacklight on | litBacklight on => cases on <;> rfl
  | setCgramAddr addr =>
    have hback : (setCgramByte addr).setWidth 6 = addr := by
      revert addr
      decide
    simp only [encode, Instr.row, Row.operands, hback]
  | setDdramAddr addr =>
    have hback : (setDdramByte addr).setWidth 7 = addr := by
      revert addr
      decide
    simp only [encode, Instr.row, Row.operands, hback]
  | init | clear | writeChar | clearDisplay | returnHome | litResync | lit4Bit | charData | frame => rfl

/-- Settles O1: the word has its row's fixed bits, and the fields hold the operands. -/
theorem rowWordsReadBack : Obligations.RowWordsReadBack := by
  intro policy backlight i h
  rw [Row.read, if_pos (matches_encode h policy backlight), operands_encode h]

end Sys2Proof

/-! PROOFS. Writing what a row reads (spec/opcode_table.json): a word is its fixed bits and its fields, for a row of
one byte by the bytes that fit, for the others field by field. -/

namespace Sys2Proof

open Machine

/-! ## The words that have a row's fixed bits -/

/-- A row reads the words with its fixed bits. -/
theorem Row.read_eq_some {r : Row} {bs : List Byte} {i : Instr} (h : r.read bs = some i) :
    r.matches bs = true ∧ r.operands bs = some i := by
  unfold Row.read at h
  split at h
  · exact ⟨‹_›, h⟩
  · cases h

/-- Every row but that of `print` has one length and one pattern for each byte. -/
theorem Row.fits_of_read {r : Row} {bs : List Byte} {i : Instr} (h : r.read bs = some i) (hr : r ≠ .print) :
    fitAll r.patterns bs = true ∧ r.operands bs = some i := by
  obtain ⟨hfit, hop⟩ := Row.read_eq_some h
  refine ⟨?_, hop⟩
  cases r with
  | print => exact absurd rfl hr
  | _ => exact hfit

theorem fitAll_nil_iff (bs : List Byte) : fitAll [] bs = true ↔ bs = [] := by
  cases bs <;> simp [fitAll]

theorem fitAll_cons_iff (p : BytePattern) (ps : List BytePattern) (bs : List Byte) :
    fitAll (p :: ps) bs = true ↔ ∃ v vs, bs = v :: vs ∧ p.fits v = true ∧ fitAll ps vs = true := by
  cases bs <;> simp [fitAll]

/-- Patterns without free bits fit one word alone. -/
theorem fitAll_fixed {ws bs : List Byte} (h : fitAll (ws.map (BytePattern.mk 0xFF#8)) bs = true) : bs = ws := by
  induction ws generalizing bs with
  | nil => exact (fitAll_nil_iff bs).mp h
  | cons w ws ih =>
    obtain ⟨v, vs, rfl, hv, hvs⟩ := (fitAll_cons_iff ..).mp h
    have hmask : v &&& 0xFF#8 = v := BitVec.and_allOnes
    rw [BytePattern.fits, beq_iff_eq, hmask] at hv
    rw [hv, ih hvs]

/-! ## Rows of one byte -/

/-- What O2 says of one word of one row. -/
def WritesBack (r : Row) (bs : List Byte) (i : Instr) : Prop :=
  ∃ backlight, ∀ policy,
    encode policy backlight i = if r = .functionSet then bs.map (fun v => v &&& 0xFC#8) else bs

/-- A row whose word is one byte: `g` reads its operands and `w` is the byte they are written as. -/
theorem writesBack_of_byte {r : Row} {p : BytePattern} (g : Byte → Instr) (w : Byte → Byte)
    (hmatches : ∀ bs, r.matches bs = fitAll [p] bs) (hread : ∀ v, r.operands [v] = some (g v))
    (hwrite : ∀ policy v, encode policy false (g v) = [w v])
    (hback : ∀ v, p.fits v = true → w v = if r = .functionSet then v &&& 0xFC#8 else v)
    {bs : List Byte} {i : Instr} (h : r.read bs = some i) : WritesBack r bs i := by
  obtain ⟨hfit, hop⟩ := Row.read_eq_some h
  rw [hmatches, fitAll_cons_iff] at hfit
  obtain ⟨v, vs, rfl, hv, hvs⟩ := hfit
  obtain rfl := (fitAll_nil_iff vs).mp hvs
  obtain rfl : g v = i := Option.some_inj.mp ((hread v).symm.trans hop)
  refine ⟨false, fun policy => ?_⟩
  rw [hwrite, hback v hv]
  split <;> rfl

/-! ## Frames as nibbles and control bits -/

/-- ENCODE's high frame as nibble and control bits. -/
theorem highFrame_eq_or (v : Byte) (m : Mode) (b : Bool) :
    highFrame v m b = (v &&& 0xF0#8) ||| (modeBits m ||| flagIf b BL_BIT) := by
  rw [highFrame, BitVec.or_comm (modeBits m), BitVec.or_assoc]

theorem lowFrame_eq_or (v : Byte) (m : Mode) (b : Bool) :
    lowFrame v m b = (v <<< 4 &&& 0xF0#8) ||| (modeBits m ||| flagIf b BL_BIT) := by
  rw [lowFrame, BitVec.or_comm (modeBits m), BitVec.or_assoc]

/-- The value of two frames has their two upper nibbles. -/
theorem valueOfFrames_nibbles (h l : Byte) :
    valueOfFrames h l &&& 0xF0#8 = h &&& 0xF0#8 ∧ valueOfFrames h l <<< 4 &&& 0xF0#8 = l &&& 0xF0#8 := by
  have hhigh (x : Byte) : x &&& 0xF0#8 &&& 0xF0#8 = x &&& 0xF0#8 ∧ (x &&& 0xF0#8) <<< 4 &&& 0xF0#8 = 0x00#8 := by
    revert x
    decide
  have hlow (x : Byte) : (x &&& 0xF0#8) >>> 4 &&& 0xF0#8 = 0x00#8 ∧
      ((x &&& 0xF0#8) >>> 4) <<< 4 &&& 0xF0#8 = x &&& 0xF0#8 := by
    revert x
    decide
  rw [valueOfFrames, BitVec.shiftLeft_or_distrib, BitVec.and_or_distrib_right, BitVec.and_or_distrib_right,
    (hhigh h).1, (hhigh h).2, (hlow l).1, (hlow l).2, BitVec.or_zero, BitVec.zero_or]
  exact ⟨rfl, rfl⟩

/-- A byte is its upper nibble and its lower. -/
theorem nibbles_or (x : Byte) : (x &&& 0xF0#8) ||| (x &&& 0x0F#8) = x := by
  revert x
  decide

/-- With the enable and the read/write bit clear, the lower nibble of a frame is its mode and its backlight. -/
theorem control_of_frame {h : Byte} (hclear : h &&& 0x06#8 = 0x00#8) :
    modeBits (modeOfFrame h) ||| flagIf (h.getLsbD 3) BL_BIT = h &&& 0x0F#8 := by
  revert h
  decide

/-- Two frames with the same control bits are ENCODE's frames of what they carry. -/
theorem frames_of_fields {h l : Byte} (hclear : h &&& 0x06#8 = 0x00#8) (hsame : h &&& 0x0F#8 = l &&& 0x0F#8) :
    highFrame (valueOfFrames h l) (modeOfFrame h) (h.getLsbD 3) = h ∧
      lowFrame (valueOfFrames h l) (modeOfFrame h) (h.getLsbD 3) = l := by
  obtain ⟨hhigh, hlow⟩ := valueOfFrames_nibbles h l
  constructor
  · rw [highFrame_eq_or, hhigh, control_of_frame hclear, nibbles_or]
  · rw [lowFrame_eq_or, hlow, control_of_frame hclear, hsame, nibbles_or]

/-! ## Rows of several bytes -/

theorem writesBack_print {bs : List Byte} {i : Instr} (h : Row.print.read bs = some i) :
    WritesBack .print bs i := by
  obtain ⟨hfit, hop⟩ := Row.read_eq_some h
  obtain rfl : Instr.print bs = i := Option.some_inj.mp hop
  obtain ⟨hlen, hall⟩ := Bool.and_eq_true_iff.mp hfit
  exact ⟨false, fun _ => printable_eq_self (of_decide_eq_true hlen) hall⟩

theorem writesBack_createChar {bs : List Byte} {i : Instr} (h : Row.createChar.read bs = some i) :
    WritesBack .createChar bs i := by
  obtain ⟨hfit, hop⟩ := Row.fits_of_read h nofun
  simp only [Row.patterns, List.replicate, fitAll_cons_iff, fitAll_nil_iff] at hfit
  obtain ⟨a, _, rfl, ha, r0, _, rfl, -, r1, _, rfl, -, r2, _, rfl, -, r3, _, rfl, -, r4, _, rfl, -, r5, _, rfl, -,
    r6, _, rfl, -, r7, _, rfl, -, rfl⟩ := hfit
  obtain rfl : Instr.createChar (glyphField a) ⟨r0, r1, r2, r3, r4, r5, r6, r7⟩ = i := Option.some_inj.mp hop
  have hslot : 0 ≤ glyphField a ∧ glyphField a < 8 := by
    clear hop h
    revert a
    decide
  have hback : glyphCommand (glyphField a * 8) = a := by
    clear hop h hslot
    revert a
    decide
  refine ⟨false, fun policy => ?_⟩
  simp [encode, cgramAddress_of_slot hslot.1 hslot.2, hback, Glyph.rows]

theorem writesBack_encode {bs : List Byte} {i : Instr} (h : Row.encode.read bs = some i) :
    WritesBack .encode bs i := by
  obtain ⟨hfit, hop⟩ := Row.fits_of_read h nofun
  simp only [Row.patterns, fitAll_cons_iff, fitAll_nil_iff] at hfit
  obtain ⟨a, _, rfl, ha, b, _, rfl, -, rfl⟩ := hfit
  simp only [Row.operands] at hop
  split at hop
  · rename_i hsame
    obtain rfl := Option.some_inj.mp hop
    obtain ⟨hhigh, hlow⟩ := frames_of_fields (eq_of_beq ha) hsame
    refine ⟨false, fun policy => ?_⟩
    simp only [encode, hhigh, hlow]
    rfl
  · cases hop

theorem writesBack_strobe {bs : List Byte} {i : Instr} (h : Row.strobe.read bs = some i) :
    WritesBack .strobe bs i := by
  obtain ⟨hfit, hop⟩ := Row.fits_of_read h nofun
  simp only [Row.patterns, fitAll_cons_iff, fitAll_nil_iff] at hfit
  obtain ⟨a, _, rfl, ha, b, _, rfl, -, c, _, rfl, -, rfl⟩ := hfit
  simp only [Row.operands] at hop
  split at hop
  · rename_i hsame
    obtain ⟨rfl, rfl⟩ := hsame
    obtain rfl := Option.some_inj.mp hop
    have hdrop := and_not_EN_BIT_of_clear (getLsbD_two_of_and_four (eq_of_beq ha))
    refine ⟨false, fun policy => ?_⟩
    simp only [encode, hdrop]
    rfl
  · cases hop

theorem writesBack_sendByte {bs : List Byte} {i : Instr} (h : Row.sendByte.read bs = some i) :
    WritesBack .sendByte bs i := by
  obtain ⟨hfit, hop⟩ := Row.fits_of_read h nofun
  simp only [Row.patterns, fitAll_cons_iff, fitAll_nil_iff] at hfit
  obtain ⟨a, _, rfl, ha, a', _, rfl, -, a'', _, rfl, -, b, _, rfl, -, b', _, rfl, -, b'', _, rfl, -, rfl⟩ := hfit
  simp only [Row.operands] at hop
  split at hop
  · rename_i hsame
    obtain ⟨hcontrol, rfl, rfl, rfl, rfl⟩ := hsame
    obtain rfl := Option.some_inj.mp hop
    obtain ⟨hhigh, hlow⟩ := frames_of_fields (eq_of_beq ha) hcontrol
    refine ⟨a''.getLsbD 3, fun policy => ?_⟩
    simp only [encode, hhigh, hlow]
    rfl
  · cases hop

/-- Settles O2: the rows of one byte by the bytes that fit their pattern, the others by the fields of their words. -/
theorem rowWordsWriteBack : Obligations.RowWordsWriteBack := by
  intro r bs i h
  cases r with
  | init =>
    obtain ⟨hfit, hop⟩ := Row.fits_of_read h nofun
    obtain rfl := fitAll_fixed hfit
    obtain rfl := Option.some_inj.mp hop
    exact ⟨false, fun _ => rfl⟩
  | print => exact writesBack_print h
  | createChar => exact writesBack_createChar h
  | encode => exact writesBack_encode h
  | strobe => exact writesBack_strobe h
  | sendByte => exact writesBack_sendByte h
  | clear | clearDisplay =>
    exact writesBack_of_byte _ (fun _ => 0x01#8) (fun _ => rfl) (fun _ => rfl) (fun _ _ => rfl) (by decide) h
  | returnHome | lit4Bit =>
    exact writesBack_of_byte _ (fun _ => 0x02#8) (fun _ => rfl) (fun _ => rfl) (fun _ _ => rfl) (by decide) h
  | litResync =>
    exact writesBack_of_byte _ (fun _ => 0x03#8) (fun _ => rfl) (fun _ => rfl) (fun _ _ => rfl) (by decide) h
  | writeChar | charData | frame =>
    exact writesBack_of_byte _ (fun v => v) (fun _ => rfl) (fun _ => rfl) (fun _ _ => rfl) (by simp) h
  | setCursor =>
    refine writesBack_of_byte _ (fun v => cursorCommand (addressField v)) (fun _ => rfl) (fun _ => rfl)
      (fun policy v => ?_) (by decide) h
    simp only [encode, ddramAddress_row_zero]
  | ddramAddr =>
    refine writesBack_of_byte _ (fun v => low8 (addressField v)) (fun _ => rfl) (fun _ => rfl) (fun policy v => ?_)
      (by decide) h
    simp only [encode, ddramAddress_row_zero]
  | cgramAddr =>
    refine writesBack_of_byte _ (fun v => low8 (glyphField v * 8)) (fun _ => rfl) (fun _ => rfl) (fun policy v => ?_)
      (by decide) h
    have hslot : 0 ≤ glyphField v ∧ glyphField v < 8 := by
      revert v
      decide
    simp only [encode, cgramAddress_of_slot hslot.1 hslot.2]
  | setCursorVisibility =>
    exact writesBack_of_byte _ (fun v => displayControlByte true (v.getLsbD 1) (v.getLsbD 0)) (fun _ => rfl)
      (fun _ => rfl) (fun _ _ => rfl) (by decide) h
  | setBacklight | litBacklight =>
    exact writesBack_of_byte _ (fun v => backlightByte (v.getLsbD 3)) (fun _ => rfl) (fun _ => rfl) (fun _ _ => rfl)
      (by decide) h
  | entryModeSet =>
    exact writesBack_of_byte _ (fun v => entryModeByte (v.getLsbD 1) (v.getLsbD 0)) (fun _ => rfl) (fun _ => rfl)
      (fun _ _ => rfl) (by decide) h
  | displayControl =>
    exact writesBack_of_byte _ (fun v => displayControlByte (v.getLsbD 2) (v.getLsbD 1) (v.getLsbD 0)) (fun _ => rfl)
      (fun _ => rfl) (fun _ _ => rfl) (by decide) h
  | functionSet =>
    exact writesBack_of_byte _ (fun v => functionSetByte (v.getLsbD 4) (v.getLsbD 3) (v.getLsbD 2)) (fun _ => rfl)
      (fun _ => rfl) (fun _ _ => rfl) (by decide) h
  | setCgramAddr =>
    exact writesBack_of_byte _ (fun v => setCgramByte (v.setWidth 6)) (fun _ => rfl) (fun _ => rfl) (fun _ _ => rfl)
      (by decide) h
  | setDdramAddr =>
    exact writesBack_of_byte _ (fun v => setDdramByte (v.setWidth 7)) (fun _ => rfl) (fun _ => rfl) (fun _ _ => rfl)
      (by decide) h

end Sys2Proof

/-! PROOFS. Reading a word of which only the bytes are known (spec/30_encoding.md R68, log 25), the labels of command
bytes, and placing a word (log 27). -/

namespace Sys2Proof

open Machine

/-! ## The rows whose words are their own -/

/-- Settles O5, each word by evaluation. -/
theorem writtenOutWordsDecode : Obligations.WrittenOutWordsDecode := ⟨rfl, rfl, rfl, rfl, rfl, rfl, rfl⟩

/-- Settles O3: the rows of several bytes by O1, the commands by their fields. -/
theorem decodeReadsBackOwnWords : Obligations.DecodeReadsBackOwnWords := by
  intro policy backlight i h hrow
  have hread := rowWordsReadBack policy backlight i h
  cases i with
  | init | clearDisplay | returnHome | litResync => rfl
  | createChar location p =>
    obtain ⟨h0, h8⟩ := of_decide_eq_true h
    simp only [encode, cgramAddress_of_slot h0 h8, Instr.row, Glyph.rows] at hread ⊢
    simp only [decode, hread, orError]
  | encode | strobe | sendByte =>
    simp only [encode, Instr.row] at hread ⊢
    simp only [decode, hread, orError]
  | entryModeSet x y => cases x <;> cases y <;> rfl
  | displayControl x y z | functionSet x y z => cases x <;> cases y <;> cases z <;> rfl
  | setCgramAddr addr =>
    clear h hread hrow
    revert addr
    simp only [encode]
    decide
  | setDdramAddr addr =>
    clear h hread hrow
    revert addr
    simp only [encode]
    decide
  | _ => simp [Instr.row] at hrow

/-! ## Command bytes -/

/-- The rows a single byte is read as. -/
def commandRows : List Row :=
  [.clearDisplay, .returnHome, .entryModeSet, .displayControl, .functionSet, .setCgramAddr, .setDdramAddr, .litResync,
    .litBacklight]

/-- A command byte is read as one of these rows, as that row reads it, and as the row its label names but for 0x00
and 0x03. -/
theorem decodeCommand_spec {v : Byte} {i : Instr} (h : decodeCommand v = .ok i) :
    i.row ∈ commandRows ∧ i.row.read [v] = some i ∧
      (v ≠ 0x00#8 ∧ v ≠ 0x03#8 → (classifyCommand v).row = some i.row) := by
  have hall : ∀ v : Byte, ∀ i ∈ (decodeCommand v).toOption, i.row ∈ commandRows ∧ i.row.read [v] = some i ∧
      (v ≠ 0x00#8 ∧ v ≠ 0x03#8 → (classifyCommand v).row = some i.row) := by decide
  exact hall v i (by simp [h, Except.toOption])

/-- The bytes 0x10 to 0x1F are labelled a shift and refused. -/
theorem decodeCommand_of_shift {v : Byte} (h : v &&& 0xF0#8 = 0x10#8) :
    classifyCommand v = .shift ∧ decodeCommand v = .error .shiftCommand := by
  revert v
  decide

theorem decodeCommand_of_not_shift {v : Byte} (h : v &&& 0xF0#8 ≠ 0x10#8) : ∃ i, decodeCommand v = .ok i := by
  have hok : (decodeCommand v).isOk = true := by
    revert v
    decide
  cases hdec : decodeCommand v with
  | ok i => exact ⟨i, rfl⟩
  | error e => simp [hdec, Except.isOk, Except.toBool] at hok

/-- The label of SETDDRAMADDR carries the address the byte is read with. -/
theorem decodeCommand_of_label_setDdramAddr {v : Byte} {a : BitVec 7} (h : classifyCommand v = .setDdramAddr a) :
    decodeCommand v = .ok (.setDdramAddr a) := by
  unfold classifyCommand at h
  split_ifs at h with h7
  cases h
  exact if_pos h7

theorem decodeCommand_of_label_setCgramAddr {v : Byte} {a : BitVec 6} (h : classifyCommand v = .setCgramAddr a) :
    decodeCommand v = .ok (.setCgramAddr a) := by
  unfold classifyCommand at h
  split_ifs at h with h7 h6
  cases h
  exact (if_neg h7).trans (if_pos h6)

/-- An instruction of these rows sends the one byte it is written as. -/
theorem transfersOf_of_commandRow {i : Instr} (h : i.row ∈ commandRows) :
    ∃ w, (∀ policy backlight, encode policy backlight i = [w]) ∧ ∀ cfg, transfersOf cfg i = [⟨w, .command⟩] := by
  cases i with
  | clearDisplay | returnHome | litResync => exact ⟨_, fun _ _ => rfl, fun _ => rfl⟩
  | entryModeSet x y => exact ⟨_, fun _ _ => rfl, fun _ => by rw [entryModeByte_eq]; rfl⟩
  | displayControl x y z => exact ⟨_, fun _ _ => rfl, fun _ => by rw [displayControlByte_eq]; rfl⟩
  | functionSet x y z => exact ⟨_, fun _ _ => rfl, fun _ => by rw [functionSetByte_eq]; rfl⟩
  | setCgramAddr a => exact ⟨_, fun _ _ => rfl, fun _ => by rw [setCgramByte_eq]; rfl⟩
  | setDdramAddr a => exact ⟨_, fun _ _ => rfl, fun _ => by rw [setDdramByte_eq]; rfl⟩
  | litBacklight on => exact ⟨_, fun _ _ => rfl, fun _ => by rw [backlightByte_eq]; rfl⟩
  | _ => simp [Instr.row, commandRows] at h

/-- Only FRAME can be ill formed. -/
theorem Instr.wellFormed_of_row_ne_frame {i : Instr} (h : i.row ≠ .frame) : i.wellFormed = true := by
  cases i with
  | frame v => exact absurd rfl h
  | _ => rfl

theorem Instr.wellFormed_of_commandRow {i : Instr} (h : i.row ∈ commandRows) : i.wellFormed = true :=
  Instr.wellFormed_of_row_ne_frame fun hframe => by simp [hframe, commandRows] at h

/-- Settles O4: 0x10 to 0x1F by R68's order; every other byte is read as a row that, by O2, writes it. -/
theorem commandBytesAreClassified : Obligations.CommandBytesAreClassified := by
  intro cfg policy backlight v
  refine ⟨decodeCommand_of_shift, fun hshift => ?_⟩
  obtain ⟨i, hdec⟩ := decodeCommand_of_not_shift hshift
  obtain ⟨hrow, hread, hlabel⟩ := decodeCommand_spec hdec
  obtain ⟨w, hencode, htransfers⟩ := transfersOf_of_commandRow hrow
  obtain ⟨b, hwrite⟩ := rowWordsWriteBack i.row [v] i hread
  have hw : w = if i.row = .functionSet then v &&& 0xFC#8 else v := by
    have hsame := (hencode policy b).symm.trans (hwrite policy)
    by_cases hfun : i.row = .functionSet
    · rw [if_pos hfun] at hsame ⊢
      exact List.singleton_inj.mp hsame
    · rw [if_neg hfun] at hsame ⊢
      exact List.singleton_inj.mp hsame
  have read_as {j : Instr} (hj : decodeCommand v = .ok j) : i = j := Except.ok.inj (hdec.symm.trans hj)
  exact ⟨i, hdec, Instr.wellFormed_of_commandRow hrow, by rw [htransfers, ← hw], by rw [hencode, ← hw], hlabel,
    fun h0 => read_as (h0 ▸ rfl), fun h3 => read_as (h3 ▸ rfl),
    fun _ ha => read_as (decodeCommand_of_label_setDdramAddr ha),
    fun _ ha => read_as (decodeCommand_of_label_setCgramAddr ha)⟩

/-- A bit above which a byte has none is set exactly where the byte reaches the bit's value. -/
theorem getLsbD_eq_decide {v : Byte} {k : Nat} (h : v.toNat < 2 ^ (k + 1)) :
    v.getLsbD k = decide (2 ^ k ≤ v.toNat) := by
  have hpow : 0 < 2 ^ k := Nat.two_pow_pos k
  have hdiv : v.toNat / 2 ^ k < 2 := (Nat.div_lt_iff_lt_mul hpow).mpr (by omega)
  rw [BitVec.getLsbD, Nat.testBit_eq_decide_div_mod_eq, Nat.mod_eq_of_lt hdiv, decide_eq_decide,
    ← Nat.one_le_div_iff hpow]
  omega

/-- A choice by the highest bit a byte can have is a choice by its size. -/
theorem ite_getLsbD {α : Type} {v : Byte} {k : Nat} {a a' b b' : α} (h : v.toNat < 2 ^ (k + 1))
    (hset : 2 ^ k ≤ v.toNat → a = a') (hclear : v.toNat < 2 ^ k → b = b') :
    (if v.getLsbD k then a else b) = if 2 ^ k ≤ v.toNat then a' else b' := by
  rw [getLsbD_eq_decide h]
  by_cases hk : 2 ^ k ≤ v.toNat
  · rw [if_pos (decide_eq_true hk), if_pos hk, hset hk]
  · rw [if_neg (by simpa using hk), if_neg hk, hclear (by omega)]

/-- The bits below a byte's highest bit. -/
theorem setWidth_eq_sub {v : Byte} {k : Nat} (hk : 2 ^ k ≤ v.toNat) :
    v.setWidth k = BitVec.ofNat k (v.toNat - 2 ^ k) := by
  apply BitVec.eq_of_toNat_eq
  rw [BitVec.toNat_setWidth, BitVec.toNat_ofNat, ← Nat.mod_eq_sub_mod hk]

/-- Settles O56, from the highest bit down: each bit that is clear halves the range of the byte. -/
theorem commandLabelsFollowTheHighestSetBit : Obligations.CommandLabelsFollowTheHighestSetBit := fun v =>
  ite_getLsbD (k := 7) v.isLt (fun h => congrArg CommandLabel.setDdramAddr (setWidth_eq_sub h)) fun h7 =>
  ite_getLsbD (k := 6) h7 (fun h => congrArg CommandLabel.setCgramAddr (setWidth_eq_sub h)) fun h6 =>
  ite_getLsbD (k := 5) h6 (fun _ => rfl) fun h5 => ite_getLsbD (k := 4) h5 (fun _ => rfl) fun h4 =>
  ite_getLsbD (k := 3) h4 (fun _ => rfl) fun h3 => ite_getLsbD (k := 2) h3 (fun _ => rfl) fun h2 =>
  ite_getLsbD (k := 1) h2 (fun _ => rfl) fun h1 => by
    have hbit : v.getLsbD 0 = decide (v.toNat = 1) := by
      rw [getLsbD_eq_decide h1, decide_eq_decide]
      omega
    rw [hbit]
    simp only [decide_eq_true_eq]

/-! ## Placing a word -/

/-- A row reads words as instructions of its own. -/
theorem Row.row_of_read {r : Row} {bs : List Byte} {i : Instr} (h : r.read bs = some i) : i.row = r := by
  have hop := (Row.read_eq_some h).2
  unfold Row.operands at hop
  split at hop
  case h_9 | h_10 | h_11 =>
    split at hop
    · cases hop
      rfl
    · cases hop
  case h_26 => cases hop
  all_goals
    cases hop
    rfl

theorem eq_some_of_orError {e : DecodeError} {o : Option Instr} {i : Instr} (h : orError e o = .ok i) : o = some i := by
  cases o with
  | some j => exact congrArg some (Except.ok.inj h)
  | none => cases h

/-- Whatever the bytes are read as is well formed: none is read as a FRAME. -/
theorem decode_wellFormed {bs : List Byte} {i : Instr} (h : decode bs = .ok i) : i.wellFormed = true := by
  have of_read {r : Row} {e : DecodeError} (h : orError e (r.read bs) = .ok i) (hr : r ≠ .frame) :
      i.wellFormed = true :=
    Instr.wellFormed_of_row_ne_frame (Row.row_of_read (eq_some_of_orError h) ▸ hr)
  unfold decode at h
  split at h
  case h_1 | h_8 => cases h
  case h_2 => exact Instr.wellFormed_of_commandRow (decodeCommand_spec h).1
  case h_3 | h_4 | h_5 | h_6 | h_7 => exact of_read h nofun

theorem decode_of_decodeTableWord {nbits w : Nat} {i : Instr} (h : decodeTableWord nbits w = some i) :
    decode (wordBytes ((nbits + 7) / 8) w) = .ok i := by
  unfold decodeTableWord at h
  split at h
  · rename_i hdec
    rw [hdec, Option.some_inj.mp h]
  · cases h

/-- Settles O7: the word's instruction is well formed, and placing makes it the next request of a core at rest. -/
theorem placedWordIsRunNext : Obligations.PlacedWordIsRunNext := by
  intro s nbits w i h
  rw [State.withFetchWord, h]
  exact step_of_request (s.place_seq i) (s.place_requests i) (decode_wellFormed (decode_of_decodeTableWord h))

end Sys2Proof
